-- ==== Sys2Proof/Word.lean ====
section
/-!
DEFINITION. The fixed widths of 00_scope.md R9: a buffer element, a header field or payload word (also RESULT and
STATUS), and a command word.
-/

namespace Sys2Proof

/-- One element of the packet buffer (00_scope.md R9). -/
abbrev Byte := BitVec 8

/-- A header field, a payload word, RESULT or STATUS (00_scope.md R9). -/
abbrev Half := BitVec 16

/-- A command word (00_scope.md R9, 30_encoding.md R81). -/
abbrev Word := BitVec 32

end Sys2Proof
end

