-- ==== Sys2Proof/Config.lean ====
section
/-!
DEFINITION. The implementation parameters of 00_scope.md R8: those that commands read, as one record with the defaults R8
gives (logs 6, 7, 20), and the OPEN values nothing fixes as free values (logs 4, 14).
-/

namespace Sys2Proof.Config

/-- The two readings of how `WRITE_U16` updates LEN (41_cursor.md R131, 90_conflicts.md C7). -/
inductive LenOnWrite where
  | max
  | assign
  deriving DecidableEq, Repr

/-- The parameters a command reads, each with the default R8 gives it. The first seven are the source's constants, which
R8 and 92_eei_decisions.md D31 make configuration fields because they are unaudited; the last two are OPEN. The state
carries them and no step changes them, so a statement about every state is a statement about every choice of them
(logs 6, 7). -/
structure Params where
  /-- `BUF_SIZE`: bytes in the packet buffer. -/
  bufSize : Nat := 256
  /-- `HDR_LEN_V1`: the header length when Version is below `CRC_MIN_VERSION`. -/
  hdrLenV1 : Nat := 10
  /-- `HDR_LEN_V2`: the header length when Version is at least `CRC_MIN_VERSION`. -/
  hdrLenV2 : Nat := 12
  /-- `CRC_MIN_VERSION`: the lowest Version that carries a CRC field. -/
  crcMinVersion : Nat := 2
  /-- `CRC_POLY`, in bit-reversed form, applied LSB-first. -/
  crcPoly : Half := 0xA001#16
  /-- `CRC_SEED`: the checksum's initial value. -/
  crcSeed : Half := 0xFFFF#16
  /-- `CRC_SENTINEL`: stands in the CRC field while a checksum is computed (42_crc.md R173). -/
  crcSentinel : Half := 0xA152#16
  /-- `PROTOCOL_VERSION`: what `RESET` writes into Version. -/
  protocolVersion : Half := 2#16
  /-- `LEN_ON_WRITE`. -/
  lenOnWrite : LenOnWrite := .max
  deriving DecidableEq, Repr

/-- Every parameter at its default (R8). -/
def defaultParams : Params := {}

/-- The seven source constants are at the source's values; the OPEN parameters are whatever they are (R8). -/
abbrev Params.FromSource (p : Params) : Prop :=
  p = { protocolVersion := p.protocolVersion, lenOnWrite := p.lenOnWrite }

/-- The sizes fit what the rules say of them: every 8-bit index is inside BUF (41_cursor.md R160), a length fits RESULT
and a difference of two its signed reading (41_cursor.md R145, R152), the fields at 0 to 9 and, with a CRC, 10 and 11 lie
in the header (10_state.md R36, R37), the longer header is the one with the CRC, and both lie in BUF (log 20). -/
abbrev Params.Consistent (p : Params) : Prop :=
  256 ≤ p.bufSize ∧ p.bufSize < 2 ^ 15 ∧ 10 ≤ p.hdrLenV1 ∧ 12 ≤ p.hdrLenV2 ∧ p.hdrLenV1 ≤ p.hdrLenV2 ∧
    p.hdrLenV2 ≤ p.bufSize

/-- `POR_BUF` (R8, 10_state.md R46, 93_implementation_defined.md U4): what the byte at an address holds after a
power-on reset, by the number of that reset. A FREE VALUE: nothing constrains it; it is stable until the byte is
written (log 4). -/
opaque porBuf : (powerOn : Nat) → (address : Nat) → Byte

/-- The reading kinds the source names, and any further one by a number of the host's (45_payload.md R191,
91_not_in_source.md N3). -/
inductive ReadingKind where
  | battVolts
  | temperature
  | other (n : Nat)
  deriving DecidableEq, Repr

/-- `TYPE_SENSOR_REPORT` (R8): a FREE VALUE, read only by the host's dispatch (log 14). -/
opaque typeSensorReport : Half

/-- `KIND_CODE(k)` (R8): FREE VALUES, read only by the host's procedures (log 14). -/
opaque kindCode : ReadingKind → Half

end Sys2Proof.Config
end

