-- ==== Sys2Proof/Syntax.lean ====
section
/-!
DEFINITION. The 25 commands of the opcode map (30_encoding.md R84), their operand forms (R82), their mnemonics and
assembler form (R87), and the reasons a word is illegal (R85).

A `V` operand and a byte are bit patterns; a count, a length and a buffer index are numbers (R11, R82).
-/

namespace Sys2Proof

/-- One command, one constructor per row of the opcode map (30_encoding.md R84). -/
inductive Instr where
  | reset
  | setDeviceId (v : Half)
  | getDeviceId
  | setNetworkId (v : Half)
  | getNetworkId
  | setVersion (v : Half)
  | getVersion
  | setAlerts (v : Half)
  | getAlerts
  | setType (v : Half)
  | getType
  | setCrc (v : Half)
  | getCrc
  | headerLen
  | writeU16 (v : Half)
  | readU16
  | skip (n : Nat)
  | remaining
  | setLength (n : Nat)
  | getLength
  | rewind
  | updateCrc
  | crcIsValid
  | bufWrite (i : Nat) (b : Byte)
  | bufRead (i : Nat)
  deriving DecidableEq, Repr

/-- Why a command word is illegal: the four conditions of 30_encoding.md R85, in its order. -/
inductive DecodeError where
  /-- condition 1: OPC is not in the map -/
  | unmappedOpcode
  /-- condition 2: RSV is not 0 -/
  | reservedNotZero
  /-- condition 3: form Z with IMM not 0 -/
  | operandNotZero
  /-- condition 4: form I with IMM[15:8] not 0 -/
  | indexHighNotZero
  deriving DecidableEq, Repr

/-- The mnemonic of a command (30_encoding.md R84). -/
def Instr.mnemonic : Instr → String
  | .reset => "RESET"
  | .setDeviceId _ => "SET_DEVICE_ID"
  | .getDeviceId => "GET_DEVICE_ID"
  | .setNetworkId _ => "SET_NETWORK_ID"
  | .getNetworkId => "GET_NETWORK_ID"
  | .setVersion _ => "SET_VERSION"
  | .getVersion => "GET_VERSION"
  | .setAlerts _ => "SET_ALERTS"
  | .getAlerts => "GET_ALERTS"
  | .setType _ => "SET_TYPE"
  | .getType => "GET_TYPE"
  | .setCrc _ => "SET_CRC"
  | .getCrc => "GET_CRC"
  | .headerLen => "HEADER_LEN"
  | .writeU16 _ => "WRITE_U16"
  | .readU16 => "READ_U16"
  | .skip _ => "SKIP"
  | .remaining => "REMAINING"
  | .setLength _ => "SET_LENGTH"
  | .getLength => "GET_LENGTH"
  | .rewind => "REWIND"
  | .updateCrc => "UPDATE_CRC"
  | .crcIsValid => "CRC_IS_VALID"
  | .bufWrite _ _ => "BUF_WRITE"
  | .bufRead _ => "BUF_READ"

/-- The operands of a command as the assembler writes them (30_encoding.md R87), in decimal. -/
def Instr.operandText : Instr → String
  | .setDeviceId v | .setNetworkId v | .setVersion v | .setAlerts v | .setType v | .setCrc v | .writeU16 v =>
      " " ++ toString v.toNat
  | .skip n | .setLength n | .bufRead n => " " ++ toString n
  | .bufWrite i b => " " ++ toString i ++ ", " ++ toString b.toNat
  | .reset | .getDeviceId | .getNetworkId | .getVersion | .getAlerts | .getType | .getCrc | .headerLen | .readU16
  | .remaining | .getLength | .rewind | .updateCrc | .crcIsValid => ""

/-- One line of assembler (30_encoding.md R87; numbers are written in decimal, log 16). -/
def Instr.assembly (i : Instr) : String := i.mnemonic ++ i.operandText

end Sys2Proof
end

