-- ==== Sys2Proof/WellFormed.lean ====
section
/-!
DEFINITION. Which commands a word can hold: a count or length fits IMM[15:0], a buffer index fits 8 bits
(30_encoding.md R82).
-/

namespace Sys2Proof

/-- A count or length operand of form N is unsigned, 0..65535 (30_encoding.md R82). -/
def countFits (n : Nat) : Bool := decide (n < 2 ^ 16)

/-- A buffer index of form B or I is 0..255 (30_encoding.md R82). -/
def indexFits (i : Nat) : Bool := decide (i < 2 ^ 8)

/-- The operands of a command fit its form (30_encoding.md R82). -/
def Instr.wf : Instr → Bool
  | .skip n | .setLength n => countFits n
  | .bufWrite i _ | .bufRead i => indexFits i
  | .reset | .setDeviceId _ | .getDeviceId | .setNetworkId _ | .getNetworkId | .setVersion _ | .getVersion
  | .setAlerts _ | .getAlerts | .setType _ | .getType | .setCrc _ | .getCrc | .headerLen | .writeU16 _ | .readU16
  | .remaining | .getLength | .rewind | .updateCrc | .crcIsValid => true

end Sys2Proof
end

