-- ==== Sys2Proof/Decode.lean ====
section
/-!
DEFINITION. The command word (30_encoding.md R81), the operand forms (R82, R83), the opcode map (R84), decoding
(R85, R89) and, after it, encoding (R87).
-/

namespace Sys2Proof

/-- OPC, bits 31:24 (30_encoding.md R81). -/
def opcField (w : Word) : BitVec 8 := w.extractLsb' 24 8

/-- RSV, bits 23:16 (30_encoding.md R81). -/
def rsvField (w : Word) : BitVec 8 := w.extractLsb' 16 8

/-- IMM, bits 15:0 (30_encoding.md R81). -/
def immField (w : Word) : Half := w.extractLsb' 0 16

/-- IMM[15:8], the index of form B and the must-be-zero part of form I (30_encoding.md R82). -/
def immHigh (imm : Half) : BitVec 8 := imm.extractLsb' 8 8

/-- IMM[7:0], the byte of form B and the index of form I (30_encoding.md R82). -/
def immLow (imm : Half) : BitVec 8 := imm.extractLsb' 0 8

/-- A row of the opcode map: its operand form (30_encoding.md R82) with the command the operands make. -/
inductive FormRow where
  | z (cmd : Instr)
  | v (cmd : Half → Instr)
  | n (cmd : Nat → Instr)
  | b (cmd : Nat → Byte → Instr)
  | i (cmd : Nat → Instr)

/-- The opcode map (30_encoding.md R84). -/
def opcodeMap : List (BitVec 8 × FormRow) :=
  [ (0x01#8, .z .reset),
    (0x10#8, .v .setDeviceId),  (0x11#8, .z .getDeviceId),
    (0x12#8, .v .setNetworkId), (0x13#8, .z .getNetworkId),
    (0x14#8, .v .setVersion),   (0x15#8, .z .getVersion),
    (0x16#8, .v .setAlerts),    (0x17#8, .z .getAlerts),
    (0x18#8, .v .setType),      (0x19#8, .z .getType),
    (0x1A#8, .v .setCrc),       (0x1B#8, .z .getCrc),
    (0x20#8, .z .headerLen),
    (0x21#8, .v .writeU16),     (0x22#8, .z .readU16),
    (0x23#8, .n .skip),         (0x24#8, .z .remaining),
    (0x25#8, .n .setLength),    (0x26#8, .z .getLength),
    (0x27#8, .z .rewind),
    (0x30#8, .z .updateCrc),    (0x31#8, .z .crcIsValid),
    (0x40#8, .b .bufWrite),     (0x41#8, .i .bufRead) ]

/-- Read IMM by the form of the row, refusing what R85 conditions 3 and 4 forbid (30_encoding.md R82, R83). -/
def readOperands (row : FormRow) (imm : Half) : Except DecodeError Instr :=
  match row with
  | .z cmd => if imm = 0#16 then .ok cmd else .error .operandNotZero
  | .v cmd => .ok (cmd imm)
  | .n cmd => .ok (cmd imm.toNat)
  | .b cmd => .ok (cmd (immHigh imm).toNat (immLow imm))
  | .i cmd => if immHigh imm = 0#8 then .ok (cmd (immLow imm).toNat) else .error .indexHighNotZero

/-- Decode a command word, total on every 32-bit value (30_encoding.md R89). -/
def decode (w : Word) : Except DecodeError Instr :=
  match opcodeMap.lookup (opcField w) with
  | none => .error .unmappedOpcode
  | some row => if rsvField w = 0#8 then readOperands row (immField w) else .error .reservedNotZero

/-- The word with opcode `opc`, RSV 0 and operand `imm`, `(OPC << 24) | value` (30_encoding.md R81, R87). -/
def commandWord (opc : BitVec 8) (imm : Half) : Word := (opc.setWidth 32 <<< 24) ||| imm.setWidth 32

/-- The operand field of a form B or I command with index `i` and low byte `b`, `(i << 8) | b` (30_encoding.md R82, R87). -/
def indexAndByte (i b : BitVec 8) : Half := (i.setWidth 16 <<< 8) ||| b.setWidth 16

/-- The word of a well-formed command (30_encoding.md R84, R87). -/
def encode : Instr → Word
  | .reset => commandWord 0x01#8 0#16
  | .setDeviceId v => commandWord 0x10#8 v
  | .getDeviceId => commandWord 0x11#8 0#16
  | .setNetworkId v => commandWord 0x12#8 v
  | .getNetworkId => commandWord 0x13#8 0#16
  | .setVersion v => commandWord 0x14#8 v
  | .getVersion => commandWord 0x15#8 0#16
  | .setAlerts v => commandWord 0x16#8 v
  | .getAlerts => commandWord 0x17#8 0#16
  | .setType v => commandWord 0x18#8 v
  | .getType => commandWord 0x19#8 0#16
  | .setCrc v => commandWord 0x1A#8 v
  | .getCrc => commandWord 0x1B#8 0#16
  | .headerLen => commandWord 0x20#8 0#16
  | .writeU16 v => commandWord 0x21#8 v
  | .readU16 => commandWord 0x22#8 0#16
  | .skip n => commandWord 0x23#8 (BitVec.ofNat 16 n)
  | .remaining => commandWord 0x24#8 0#16
  | .setLength n => commandWord 0x25#8 (BitVec.ofNat 16 n)
  | .getLength => commandWord 0x26#8 0#16
  | .rewind => commandWord 0x27#8 0#16
  | .updateCrc => commandWord 0x30#8 0#16
  | .crcIsValid => commandWord 0x31#8 0#16
  | .bufWrite i b => commandWord 0x40#8 (indexAndByte (BitVec.ofNat 8 i) b)
  | .bufRead i => commandWord 0x41#8 (indexAndByte 0#8 (BitVec.ofNat 8 i))

/-- The command word whose low `nbits` bits are those of `w` and whose other bits are 0. Every command is one word, and
the opcode table numbers its bits as R81 does. -/
def tableWord (nbits w : Nat) : Word := BitVec.ofNat 32 (w % 2 ^ nbits)

/-- What the decoder reads from a word given as the opcode table numbers its bits. -/
def decodeTableWord (nbits w : Nat) : Option Instr :=
  match decode (tableWord nbits w) with
  | .ok i => some i
  | .error _ => none

end Sys2Proof
end

