-- ==== Sys2Proof/Machine/State.lean ====
section
/-!
DEFINITION. The state of ZPC (10_state.md R30) with what the model carries beside it, the machine after power-on reset
(R46), and the small types the operations speak of.
-/

namespace Sys2Proof.Machine

/-- BUF as the bytes written since power-on, by address, addresses strictly rising (log 5). An address that is not
listed has not been written and reads as `Config.porBuf` says (10_state.md R46). -/
abbrev Memory := List Host.Cell

/-- What arrives from outside ZPC: a command word on the command port (30_encoding.md R80), or a power-on reset, which
also stands for any loss of the volatile state (70_reset_and_hazards.md R240, 10_state.md R47; log 3). -/
inductive Input where
  | command (w : Word)
  | powerOn
  deriving DecidableEq, Repr

/-- The cause of a ZPC fault (60_exceptions.md R211). -/
inductive Cause where
  | illegalCommand
  | cursorOverrun
  | lengthRange
  | viewRange
  deriving DecidableEq, Repr

/-- The six header fields (10_state.md R36). -/
inductive HeaderField where
  | deviceId
  | networkId
  | version
  | alerts
  | type
  | crc
  deriving DecidableEq, Repr

/-- The regions of the buffer map (20_memory.md R68). -/
inductive Region where
  | header
  | crcField
  | payload
  | outside
  deriving DecidableEq, Repr

/-- Everything a step reads and writes. The first five fields are ZPC's whole architectural state (10_state.md R30);
the last three are the model's own. -/
structure State where
  /-- BUF (10_state.md R35) -/
  buf : Memory
  /-- PTR, an integer in 0..BUF_SIZE (10_state.md R32) -/
  ptr : Nat
  /-- LEN, an integer in 0..BUF_SIZE (10_state.md R34) -/
  len : Nat
  /-- RESULT (10_state.md R42) -/
  result : Half
  /-- STATUS (10_state.md R43) -/
  status : Half
  /-- what will still arrive from outside, the next first (30_encoding.md R80, log 1) -/
  inputs : List Input
  /-- how many power-on resets followed the first one (log 4) -/
  powerOns : Nat
  /-- the implementation parameters of 00_scope.md R8 that commands read (logs 6, 7) -/
  params : Config.Params
  deriving DecidableEq, Repr

/-- The reasons the MODEL stops; none is a ZPC fault, which is a next state (60_exceptions.md R212, log 10). -/
inductive Fault where
  /-- An access to the address given, which lies outside BUF (20_memory.md R60, R65). Raised by `UPDATE_CRC` and
  `CRC_IS_VALID` when LEN exceeds BUF_SIZE, and by `BUF_WRITE` and `BUF_READ` of an index no word can hold; no decoded
  command raises it while LEN is at most BUF_SIZE and BUF_SIZE at least 256. Safe (log 8). -/
  | outsideBuffer (address : Nat)
  deriving DecidableEq, Repr

/-- The reasons the model has no meaning for a command. -/
inductive Refusal where
  /-- The command is not modelled. No arm of `exec` answers it. Safe. -/
  | notModelled (mnemonic : String)
  deriving DecidableEq, Repr

/-- ZPC after power-on reset (10_state.md R46, 70_reset_and_hazards.md R240), with nothing on the command port. -/
def State.reset : State :=
  { buf := [], ptr := 0, len := 0, result := 0#16, status := 0#16,
    inputs := [], powerOns := 0, params := Config.defaultParams }

end Sys2Proof.Machine
end

