-- ==== Sys2Proof/Machine/Flags.lean ====
section
/-!
DEFINITION. The bits of STATUS (10_state.md R43) and the cause codes (60_exceptions.md R211). ZPC has no other flag
(10_state.md R44).
-/

namespace Sys2Proof.Machine

/-- The cause codes (60_exceptions.md R211). -/
def Cause.code : Cause → BitVec 4
  | .illegalCommand => 1#4
  | .cursorOverrun => 2#4
  | .lengthRange => 3#4
  | .viewRange => 4#4

/-- STATUS with FAULT 1, CAUSE the code, and the hardwired zeros (10_state.md R43, 60_exceptions.md R212). -/
def faultStatus (c : Cause) : Half := 0#8 ++ c.code ++ 0#3 ++ 1#1

/-- STATUS.FAULT, bit 0 (10_state.md R43). -/
def State.faulted (s : State) : Bool := s.status[0]

/-- STATUS.CAUSE, bits 7:4 (10_state.md R43). -/
def State.cause (s : State) : BitVec 4 := s.status.extractLsb' 4 4

/-- The bits of STATUS that exist; the others are hardwired 0 (10_state.md R43, 93_implementation_defined.md U8). -/
def statusMask : Half := 0x00F1#16

/-- What the host reads on the status port, at any time (10_state.md R43, 30_encoding.md R80). -/
def State.statusPort (s : State) : Half := s.status &&& statusMask

/-- What the host reads on the response port after a command (10_state.md R42, 30_encoding.md R80). -/
def State.responsePort (s : State) : Half := s.result

end Sys2Proof.Machine
end

