-- ==== Sys2Proof/Machine/Ops.lean ====
section
/-!
DEFINITION. The operations every meaning is made of: reading and writing BUF (00_scope.md R13, 20_memory.md R61), the
registers PTR, LEN and RESULT, raising a fault (60_exceptions.md R212), refusing after one (R217), power-on reset
(70_reset_and_hazards.md R240), and taking the next input.
-/

namespace Sys2Proof.Machine

/-! ### BUF as data -/

/-- The byte written at `a` since power-on, if any. -/
def Memory.stored : Memory → Nat → Option Byte
  | [], _ => none
  | (k, b) :: rest, a => if k = a then some b else Memory.stored rest a

/-- Write `b` at `a`, keeping the addresses strictly rising (log 5). -/
def Memory.store : Memory → Nat → Byte → Memory
  | [], a, b => [(a, b)]
  | (k, c) :: rest, a, b =>
      if a < k then (a, b) :: (k, c) :: rest
      else if a = k then (a, b) :: rest
      else (k, c) :: Memory.store rest a b

/-- All addresses are at least `lo` and strictly rising. -/
def Memory.risingFrom : Nat → Memory → Bool
  | _, [] => true
  | lo, (k, _) :: rest => decide (lo ≤ k) && Memory.risingFrom (k + 1) rest

/-- The canonical form of BUF (log 5). -/
def Memory.wf (m : Memory) : Bool := Memory.risingFrom 0 m

/-- Every address listed is below `size` (20_memory.md R60). -/
def Memory.inside (size : Nat) (m : Memory) : Bool := m.all fun c => decide (c.1 < size)

/-- What an address not written since power-on reads as: `POR_BUF` of the last power-on (10_state.md R46, log 4). -/
def State.unwritten (s : State) (a : Nat) : Byte := Config.porBuf s.powerOns a

/-- `BUF[a]` (00_scope.md R12). -/
def State.byteAt (s : State) (a : Nat) : Byte := (Memory.stored s.buf a).getD (s.unwritten a)

/-- `BUF[a] <- b`. -/
def State.setByte (s : State) (a : Nat) (b : Byte) : State := { s with buf := Memory.store s.buf a b }

/-- Bits 15:8 of a 16-bit value, the byte at the lower address (20_memory.md R61). -/
def highByte (v : Half) : Byte := v.extractLsb' 8 8

/-- Bits 7:0 of a 16-bit value, the byte at the higher address (20_memory.md R61). -/
def lowByte (v : Half) : Byte := v.extractLsb' 0 8

/-- `hi ‖ lo`, the 16-bit value of two bytes (00_scope.md R11). -/
def joinBytes (hi lo : Byte) : Half := (hi.setWidth 16 <<< 8) ||| lo.setWidth 16

/-- `MemRead(a, 2)`, big-endian (00_scope.md R13). -/
def State.memRead16 (s : State) (a : Nat) : Half := joinBytes (s.byteAt a) (s.byteAt (a + 1))

/-- `MemWrite(a, 2, v)`, big-endian (00_scope.md R13). -/
def State.memWrite16 (s : State) (a : Nat) (v : Half) : State :=
  (s.setByte a (highByte v)).setByte (a + 1) (lowByte v)

/-- Go on only if the `n` bytes from `a` lie inside BUF (00_scope.md R13, 20_memory.md R65): an address outside it does
not exist, and the model stops (log 8). -/
def State.within (s : State) (a n : Nat) (go : State → Host.Outcome State Fault Refusal) :
    Host.Outcome State Fault Refusal :=
  if a + n ≤ s.params.bufSize then go s else .fault (.outsideBuffer (a + n - 1))

/-! ### Registers -/

/-- `PTR <- p`. -/
def State.setPtr (s : State) (p : Nat) : State := { s with ptr := p }

/-- `LEN <- n`. -/
def State.setLen (s : State) (n : Nat) : State := { s with len := n }

/-- `RESULT <- v` (10_state.md R42). -/
def State.respond (s : State) (v : Half) : State := { s with result := v }

/-- LEN after a `WRITE_U16` that ends at `np` (41_cursor.md R131). -/
def lenUpd (mode : Config.LenOnWrite) (len np : Nat) : Nat :=
  match mode with
  | .max => max len np
  | .assign => np

/-! ### Faults -/

/-- STATUS after `raise Fault(cause)`; nothing else changes (60_exceptions.md R212). -/
def State.withFault (s : State) (c : Cause) : State := { s with status := faultStatus c }

/-- `raise Fault(cause)`: record the cause and end the command (60_exceptions.md R212). -/
def State.raise (s : State) (c : Cause) : Host.Outcome State Fault Refusal := .next (s.withFault c)

/-- A command with one range check, made before its first write (60_exceptions.md R212, R218): raise `c` when `bad`
holds, else go on. Either way the machine has a next state. -/
def State.faultIf (s : State) (bad : Bool) (c : Cause) (go : State → State) : Host.Outcome State Fault Refusal :=
  .next (if bad then s.withFault c else go s)

/-- Every command rule's first line: while STATUS.FAULT is 1 the command is refused with no effect at all
(60_exceptions.md R217, R218). -/
def State.unlessFaulted (s : State) (go : State → Host.Outcome State Fault Refusal) :
    Host.Outcome State Fault Refusal :=
  if s.faulted then .next s else go s

/-- Power-on reset: every piece of ZPC's state at its value of 10_state.md R46 (70_reset_and_hazards.md R240); it is
what clears a fault. BUF holds whatever this power-on leaves there. -/
def State.powerOn (s : State) : State :=
  { s with buf := [], ptr := 0, len := 0, result := 0#16, status := 0#16, powerOns := s.powerOns + 1 }

/-! ### The command port -/

/-- The state once the next input has been taken from outside. -/
def State.takeInput (s : State) : State := { s with inputs := s.inputs.tail }

/-- Put the word `w` on the command port, before all that would still arrive (30_encoding.md R80). -/
def State.presentWord (s : State) (w : Word) : State := { s with inputs := .command w :: s.inputs }

/-- Put the word `w` on the command port in place of what is there. -/
def State.replaceInput (s : State) (w : Word) : State := { s with inputs := .command w :: s.inputs.tail }

end Sys2Proof.Machine
end

