-- ==== Sys2Proof/Machine/Operands.lean ====
section
/-!
DEFINITION. What a command's operands and the derived names of 00_scope.md R14 stand for: the header fields as views of
BUF (10_state.md R36), the header length and the effective cursor, each computed at the moment it is used (R38).
-/

namespace Sys2Proof.Machine

/-- The offset of a header field (10_state.md R36). -/
def HeaderField.offset : HeaderField → Nat
  | .deviceId => 0
  | .networkId => 2
  | .version => 4
  | .alerts => 6
  | .type => 8
  | .crc => 10

/-- The value of a header field (10_state.md R36, 40_header.md R101). -/
def State.getField (s : State) (f : HeaderField) : Half := s.memRead16 f.offset

/-- Write a header field (40_header.md R101). -/
def State.setField (s : State) (f : HeaderField) (v : Half) : State := s.memWrite16 f.offset v

/-- `VER()` (00_scope.md R14). -/
def State.version (s : State) : Half := s.getField .version

/-- `HAS_CRC()` (00_scope.md R14): the comparison is unsigned (40_header.md R114). -/
def State.hasCrc (s : State) : Bool := decide (s.params.crcMinVersion ≤ s.version.toNat)

/-- `HL()` (00_scope.md R14). -/
def State.headerLen (s : State) : Nat := if s.hasCrc then s.params.hdrLenV2 else s.params.hdrLenV1

/-- `EPTR()`, the cursor after the snap (00_scope.md R14, 10_state.md R32). -/
def State.effPtr (s : State) : Nat := max s.ptr s.headerLen

/-- A number up to 65535 as a 16-bit register value (00_scope.md R11). -/
def ofCount (n : Nat) : Half := BitVec.ofNat 16 n

/-- A byte zero-extended to 16 bits (00_scope.md R11). -/
def ofByte (b : Byte) : Half := b.setWidth 16

/-- An integer reduced modulo 2^16 to its two's complement value (41_cursor.md R145). -/
def ofInteger (z : Int) : Half := BitVec.ofInt 16 z

end Sys2Proof.Machine
end

