-- ==== Sys2Proof/Machine/Packet.lean ====
section
/-!
DEFINITION. The packet as a view of the state: its image (20_memory.md R69, 41_cursor.md R165), the buffer map
(20_memory.md R68), and the reading pairs of its payload (45_payload.md R190).
-/

namespace Sys2Proof.Machine

/-- The bytes `BUF[a:b]`, `a` up to `b - 1`, in address order (00_scope.md R17). -/
def State.span (s : State) (a b : Nat) : List Byte := (List.range' a (b - a)).map s.byteAt

/-- The packet image `BUF[0:LEN]` (20_memory.md R69). -/
def State.image (s : State) : List Byte := s.span 0 s.len

/-- The payload, the bytes from `HL()` up to LEN (00_scope.md R17). -/
def State.payload (s : State) : List Byte := s.span s.headerLen s.len

/-- The region of the buffer map an address lies in; none for an address outside BUF (20_memory.md R68). The fields stand
at their offsets whatever the header lengths are. At a Version with no CRC field bytes 10 and 11 count as payload only as
far as they lie below LEN (DEDUCED, log 15). DESIGN CHOICE (log 15): at header lengths other than the source's, which R68
does not speak of, the bytes below the header length that no field occupies are `header`. -/
def State.region (s : State) (a : Nat) : Option Region :=
  if a ≥ s.params.bufSize then none
  else if a < HeaderField.offset .crc then some .header
  else if s.hasCrc && decide (a < HeaderField.offset .crc + 2) then some .crcField
  else if a < s.headerLen then some .header
  else if a < s.len then some .payload
  else some .outside

/-- The number of whole reading pairs in the payload (45_payload.md R190). -/
def State.pairCount (s : State) : Nat := (s.len - s.headerLen) / 4

/-- Pair `j` of the payload: its kind and its value (45_payload.md R190). -/
def State.pairAt (s : State) (j : Nat) : Half × Half :=
  (s.memRead16 (s.headerLen + 4 * j), s.memRead16 (s.headerLen + 4 * j + 2))

/-- The reading pairs of the payload in order (45_payload.md R190). -/
def State.pairs (s : State) : List (Half × Half) := (List.range s.pairCount).map s.pairAt

end Sys2Proof.Machine
end

