-- ==== Sys2Proof/Machine/Crc.lean ====
section
/-!
DEFINITION. The checksum function (42_crc.md R170) and its two commands.
-/

namespace Sys2Proof.Machine

/-- One bit-iteration with the polynomial `poly` (42_crc.md R170, log 12). -/
def crcShift (poly r : Half) : Half := if r[0] then (r >>> 1) ^^^ poly else r >>> 1

/-- `n` bit-iterations. -/
def crcShifts (poly : Half) : Nat → Half → Half
  | 0, r => r
  | n + 1, r => crcShifts poly n (crcShift poly r)

/-- One byte: XORed into bits 7:0, then 8 bit-iterations (42_crc.md R170). -/
def crcByte (poly r : Half) (b : Byte) : Half := crcShifts poly 8 (r ^^^ ofByte b)

/-- `CRC16` of a sequence of bytes, from `CRC_SEED`, in address order (42_crc.md R170). -/
def crc16 (p : Config.Params) (bytes : List Byte) : Half := bytes.foldl (crcByte p.crcPoly) p.crcSeed

/-- The checksum of the packet image with the sentinel in the CRC field (42_crc.md R172, R173, R174). It is computed on a
copy, so what the field held stands in BUF again when the command ends (R180, log 13). -/
def State.checksum (s : State) : Half := crc16 s.params (s.setField .crc s.params.crcSentinel).image

/-- `UPDATE_CRC` (42_crc.md R175). -/
def execUpdateCrc (s : State) : Host.Outcome State Fault Refusal :=
  s.unlessFaulted fun s => s.within 0 s.len fun s =>
    .next (if s.hasCrc then (s.setField .crc s.checksum).respond s.checksum else s.respond 0#16)

/-- `CRC_IS_VALID` (42_crc.md R180). A mismatch is no fault (R181). -/
def execCrcIsValid (s : State) : Host.Outcome State Fault Refusal :=
  s.unlessFaulted fun s => s.within 0 s.len fun s =>
    .next (s.respond (if s.hasCrc && decide (s.checksum ≠ s.getField .crc) then 0#16 else 1#16))

end Sys2Proof.Machine
end

