-- ==== Sys2Proof/Machine/Cursor.lean ====
section
/-!
DEFINITION. The cursor, length and raw buffer commands (41_cursor.md). Each checks its one fault condition before its
first write (60_exceptions.md R212, R218).
-/

namespace Sys2Proof.Machine

/-- `WRITE_U16 v` (41_cursor.md R130, R131). -/
def execWriteU16 (v : Half) (s : State) : Host.Outcome State Fault Refusal :=
  s.unlessFaulted fun s => s.faultIf (s.effPtr + 2 > s.params.bufSize) .cursorOverrun fun s =>
    (((s.memWrite16 s.effPtr v).setPtr (s.effPtr + 2)).setLen
      (lenUpd s.params.lenOnWrite s.len (s.effPtr + 2))).respond 0#16

/-- `READ_U16` (41_cursor.md R135). -/
def execReadU16 (s : State) : Host.Outcome State Fault Refusal :=
  s.unlessFaulted fun s => s.faultIf (s.effPtr + 2 > s.params.bufSize) .cursorOverrun fun s =>
    (s.setPtr (s.effPtr + 2)).respond (s.memRead16 s.effPtr)

/-- `SKIP n` (41_cursor.md R140). -/
def execSkip (n : Nat) (s : State) : Host.Outcome State Fault Refusal :=
  s.unlessFaulted fun s => s.faultIf (s.effPtr + n > s.params.bufSize) .cursorOverrun fun s =>
    (s.setPtr (s.effPtr + n)).respond 0#16

/-- `REMAINING` (41_cursor.md R145): PTR as stored, without the snap. -/
def execRemaining (s : State) : Host.Outcome State Fault Refusal :=
  s.unlessFaulted fun s => .next (s.respond (ofInteger ((s.len : Int) - (s.ptr : Int))))

/-- `SET_LENGTH n` (41_cursor.md R150). -/
def execSetLength (n : Nat) (s : State) : Host.Outcome State Fault Refusal :=
  s.unlessFaulted fun s => s.faultIf (n > s.params.bufSize) .lengthRange fun s =>
    ((s.setLen n).setPtr (min s.ptr n)).respond 0#16

/-- `GET_LENGTH` (41_cursor.md R152). -/
def execGetLength (s : State) : Host.Outcome State Fault Refusal :=
  s.unlessFaulted fun s => .next (s.respond (ofCount s.len))

/-- `REWIND` (41_cursor.md R155). -/
def execRewind (s : State) : Host.Outcome State Fault Refusal :=
  s.unlessFaulted fun s => .next ((s.setPtr s.headerLen).respond 0#16)

/-- `BUF_WRITE i, b` (41_cursor.md R160). -/
def execBufWrite (i : Nat) (b : Byte) (s : State) : Host.Outcome State Fault Refusal :=
  s.unlessFaulted fun s => s.within i 1 fun s => .next ((s.setByte i b).respond 0#16)

/-- `BUF_READ i` (41_cursor.md R162). -/
def execBufRead (i : Nat) (s : State) : Host.Outcome State Fault Refusal :=
  s.unlessFaulted fun s =>
    if i ≥ s.len then s.raise .viewRange
    else s.within i 1 fun s => .next (s.respond (ofByte (s.byteAt i)))

end Sys2Proof.Machine
end

