-- ==== Sys2Proof/Machine/Header.lean ====
section
/-!
DEFINITION. The header commands (40_header.md): `RESET`, the set and get of each header field, `HEADER_LEN`.
-/

namespace Sys2Proof.Machine

/-- `SET_<field> v` (40_header.md R101). -/
def State.commandSet (s : State) (f : HeaderField) (v : Half) : Host.Outcome State Fault Refusal :=
  s.unlessFaulted fun s => .next ((s.setField f v).respond 0#16)

/-- `GET_<field>` (40_header.md R101). -/
def State.commandGet (s : State) (f : HeaderField) : Host.Outcome State Fault Refusal :=
  s.unlessFaulted fun s => .next (s.respond (s.getField f))

/-- `RESET` (40_header.md R100). -/
def execReset (s : State) : Host.Outcome State Fault Refusal :=
  s.unlessFaulted fun s =>
    .next ((((s.setPtr 0).setLen 0).setField .version s.params.protocolVersion).respond 0#16)

/-- `SET_DEVICE_ID v` (40_header.md R102). -/
def execSetDeviceId (v : Half) (s : State) : Host.Outcome State Fault Refusal := s.commandSet .deviceId v

/-- `GET_DEVICE_ID` (40_header.md R103). -/
def execGetDeviceId (s : State) : Host.Outcome State Fault Refusal := s.commandGet .deviceId

/-- `SET_NETWORK_ID v` (40_header.md R104). -/
def execSetNetworkId (v : Half) (s : State) : Host.Outcome State Fault Refusal := s.commandSet .networkId v

/-- `GET_NETWORK_ID` (40_header.md R105). -/
def execGetNetworkId (s : State) : Host.Outcome State Fault Refusal := s.commandGet .networkId

/-- `SET_VERSION v` (40_header.md R106). -/
def execSetVersion (v : Half) (s : State) : Host.Outcome State Fault Refusal := s.commandSet .version v

/-- `GET_VERSION` (40_header.md R107). -/
def execGetVersion (s : State) : Host.Outcome State Fault Refusal := s.commandGet .version

/-- `SET_ALERTS v` (40_header.md R108). -/
def execSetAlerts (v : Half) (s : State) : Host.Outcome State Fault Refusal := s.commandSet .alerts v

/-- `GET_ALERTS` (40_header.md R109). -/
def execGetAlerts (s : State) : Host.Outcome State Fault Refusal := s.commandGet .alerts

/-- `SET_TYPE v` (40_header.md R110). -/
def execSetType (v : Half) (s : State) : Host.Outcome State Fault Refusal := s.commandSet .type v

/-- `GET_TYPE` (40_header.md R111). -/
def execGetType (s : State) : Host.Outcome State Fault Refusal := s.commandGet .type

/-- `SET_CRC v` (40_header.md R112): unconditional at every Version. -/
def execSetCrc (v : Half) (s : State) : Host.Outcome State Fault Refusal := s.commandSet .crc v

/-- `GET_CRC` (40_header.md R113). -/
def execGetCrc (s : State) : Host.Outcome State Fault Refusal := s.commandGet .crc

/-- `HEADER_LEN` (40_header.md R114). -/
def execHeaderLen (s : State) : Host.Outcome State Fault Refusal :=
  s.unlessFaulted fun s => .next (s.respond (ofCount s.headerLen))

end Sys2Proof.Machine
end

