-- ==== Sys2Proof/Machine/Dispatch.lean ====
section
/-!
DEFINITION. The meaning of each command, one arm per row of the opcode map (30_encoding.md R84).
-/

namespace Sys2Proof.Machine

def exec (i : Instr) (s : State) : Host.Outcome State Fault Refusal :=
  match i with
  | .reset => Sys2Proof.Machine.execReset s
  | .setDeviceId v => Sys2Proof.Machine.execSetDeviceId v s
  | .getDeviceId => Sys2Proof.Machine.execGetDeviceId s
  | .setNetworkId v => Sys2Proof.Machine.execSetNetworkId v s
  | .getNetworkId => Sys2Proof.Machine.execGetNetworkId s
  | .setVersion v => Sys2Proof.Machine.execSetVersion v s
  | .getVersion => Sys2Proof.Machine.execGetVersion s
  | .setAlerts v => Sys2Proof.Machine.execSetAlerts v s
  | .getAlerts => Sys2Proof.Machine.execGetAlerts s
  | .setType v => Sys2Proof.Machine.execSetType v s
  | .getType => Sys2Proof.Machine.execGetType s
  | .setCrc v => Sys2Proof.Machine.execSetCrc v s
  | .getCrc => Sys2Proof.Machine.execGetCrc s
  | .headerLen => Sys2Proof.Machine.execHeaderLen s
  | .writeU16 v => Sys2Proof.Machine.execWriteU16 v s
  | .readU16 => Sys2Proof.Machine.execReadU16 s
  | .skip n => Sys2Proof.Machine.execSkip n s
  | .remaining => Sys2Proof.Machine.execRemaining s
  | .setLength n => Sys2Proof.Machine.execSetLength n s
  | .getLength => Sys2Proof.Machine.execGetLength s
  | .rewind => Sys2Proof.Machine.execRewind s
  | .updateCrc => Sys2Proof.Machine.execUpdateCrc s
  | .crcIsValid => Sys2Proof.Machine.execCrcIsValid s
  | .bufWrite a b => Sys2Proof.Machine.execBufWrite a b s
  | .bufRead a => Sys2Proof.Machine.execBufRead a s

end Sys2Proof.Machine
end

