-- ==== Sys2Proof/Machine/Step.lean ====
section
/-!
DEFINITION. One step: ZPC takes what is on the command port (30_encoding.md R80) and performs it (R89; order of checks:
60_exceptions.md R218).
-/

namespace Sys2Proof.Machine

/-- One step. With nothing on the command port ZPC waits (log 2); a power-on reset happens; a command word is refused
undecoded while STATUS.FAULT is 1 (60_exceptions.md R217), faults when it is illegal (R213), and is executed otherwise. -/
def step (s : State) : Host.Outcome State Fault Refusal :=
  match s.inputs with
  | [] => .next s
  | .powerOn :: _ => .next s.takeInput.powerOn
  | .command w :: _ =>
      if s.faulted then .next s.takeInput
      else
        match decode w with
        | .error _ => s.takeInput.raise .illegalCommand
        | .ok i => exec i s.takeInput

/-- The state with the command given by its table bits on the command port, so that the next step runs it (log 1). -/
def State.withFetchWord (s : State) (nbits w : Nat) : State := s.replaceInput (tableWord nbits w)

end Sys2Proof.Machine
end

