-- ==== Sys2Proof/Machine/Payload.lean ====
section
/-!
DEFINITION. The host's side: issuing a command, the pseudo-instructions (30_encoding.md R88), and the procedures that
build, send, receive, dispatch on and scan a packet (45_payload.md). None of them is a ZPC command; each is a sequence of
commands the host issues, one step each.
-/

namespace Sys2Proof.Machine

/-- Issue one command: present its word and let ZPC perform it (30_encoding.md R80). -/
def State.issue (s : State) (i : Instr) : Host.Outcome State Fault Refusal := step (s.presentWord (encode i))

/-- Issue commands in order (20_memory.md R71). -/
def State.issueAll : State → List Instr → Host.Outcome State Fault Refusal
  | s, [] => .next s
  | s, i :: rest =>
      match s.issue i with
      | .next t => t.issueAll rest
      | .fault r => .fault r
      | .refused r => .refused r

/-- Issue a command and take its RESULT (45_payload.md, "issue C"). -/
def State.ask (s : State) (i : Instr) : Option (Half × State) :=
  match s.issue i with
  | .next t => some (t.responsePort, t)
  | .fault _ => none
  | .refused _ => none

/-! ### Pseudo-instructions (30_encoding.md R88) -/

/-- `ADD_READING k, v` (30_encoding.md R88, 45_payload.md R192). -/
def addReading (k v : Half) : List Instr := [.writeU16 k, .writeU16 v]

/-- `ADD_READING` of each pair in order (45_payload.md R192). -/
def addReadings (pairs : List (Half × Half)) : List Instr := pairs.flatMap fun p => addReading p.1 p.2

/-- `SET_HEADER d, n, t, a` (30_encoding.md R88). -/
def setHeader (d n t a : Half) : List Instr := [.setDeviceId d, .setNetworkId n, .setType t, .setAlerts a]

/-- `BUF_WRITE` of the bytes given, from index `i` on. -/
def writeBytes : Nat → List Byte → List Instr
  | _, [] => []
  | i, b :: rest => .bufWrite i b :: writeBytes (i + 1) rest

/-- `LOAD_FRAME` of the bytes given, at most BUF_SIZE of them (30_encoding.md R88). -/
def loadFrame (bytes : List Byte) : List Instr := writeBytes 0 bytes ++ [.setLength bytes.length]

/-- `FINALIZE` (30_encoding.md R88). -/
def finalize : List Instr := [.updateCrc, .getLength]

/-! ### Scans -/

/-- How often a scan's loop body can run on a packet, and once more to see the end (45_payload.md R197, log 17). -/
def State.scanBound (s : State) : Nat := (s.params.bufSize - s.params.hdrLenV1) / 4 + 1

/-- The loop of `FIND(k)` (45_payload.md R194): `some v` for FOUND(v), `none` inside for ABSENT; the outer `none` says
that the loop did not end within the bound, or that the model stopped. -/
def State.findLoop (k : Half) : Nat → State → Option (Option Half × State)
  | 0, _ => none
  | fuel + 1, s =>
      (s.ask .remaining).bind fun (left, s) =>
        if left.toInt < 4 then some (none, s)
        else
          (s.ask .readU16).bind fun (kind, s) =>
            if kind = k then (s.ask .readU16).bind fun (v, s) => some (some v, s)
            else (s.ask (.skip 2)).bind fun (_, s) => State.findLoop k fuel s

/-- `FIND(k)` (45_payload.md R193, R194). -/
def State.find (s : State) (k : Half) : Option (Option Half × State) :=
  (s.ask .rewind).bind fun (_, t) => t.findLoop k s.scanBound

/-- `has_<kind>()` (45_payload.md R194). -/
def State.hasKind (s : State) (kind : Config.ReadingKind) : Option (Bool × State) :=
  (s.find (Config.kindCode kind)).map fun (r, s) => (r.isSome, s)

/-- `get_<kind>(default)` (45_payload.md R194). -/
def State.getKind (s : State) (kind : Config.ReadingKind) (default : Half) : Option (Half × State) :=
  (s.find (Config.kindCode kind)).map fun (r, s) => (r.getD default, s)

/-- The loop of `ALL()` (45_payload.md R195), with the pairs found so far. -/
def State.allLoop : Nat → List (Half × Half) → State → Option (List (Half × Half) × State)
  | 0, _, _ => none
  | fuel + 1, out, s =>
      (s.ask .remaining).bind fun (left, s) =>
        if left.toInt < 4 then some (out, s)
        else
          (s.ask .readU16).bind fun (kind, s) =>
            (s.ask .readU16).bind fun (value, s) => State.allLoop fuel (out ++ [(kind, value)]) s

/-- `ALL()`, the source's `all_readings()` (45_payload.md R193, R195): the pairs in order, duplicates kept. -/
def State.allReadings (s : State) : Option (List (Half × Half) × State) :=
  (s.ask .rewind).bind fun (_, t) => t.allLoop s.scanBound []

/-! ### Send, receive and dispatch -/

/-- Read out the first `m` bytes of the packet from index `i` on with `BUF_READ` (20_memory.md R69). -/
def State.readOut : Nat → Nat → State → Option (List Half × State)
  | _, 0, s => some ([], s)
  | i, m + 1, s =>
      (s.ask (.bufRead i)).bind fun (b, s) =>
        (State.readOut (i + 1) m s).map fun (bytes, s) => (b :: bytes, s)

/-- The codec part of the source's `send` (45_payload.md R198): the bytes handed to the radio. -/
def State.send (s : State) (t id alerts : Half) : Option (List Half × State) :=
  match s.issueAll [.setVersion s.params.protocolVersion, .setType t, .setNetworkId 0#16, .setDeviceId id,
      .setAlerts alerts, .updateCrc] with
  | .next s => (s.ask .getLength).bind fun (m, s) => State.readOut 0 m.toNat s
  | .fault _ => none
  | .refused _ => none

/-- Receive a frame and check it (45_payload.md R200): the answer of `CRC_IS_VALID`. -/
def State.receive (s : State) (bytes : List Byte) : Option (Half × State) :=
  match s.issueAll (loadFrame bytes) with
  | .next s => s.ask .crcIsValid
  | .fault _ => none
  | .refused _ => none

/-- `detect_message`: whether the packet's Type selects the SensorReport view (45_payload.md R199). -/
def State.isSensorReport (s : State) : Option (Bool × State) :=
  (s.ask .getType).map fun (t, s) => (decide (t = Config.typeSensorReport), s)

end Sys2Proof.Machine
end

