-- ==== Sys2Proof/Safety.lean ====
section
/-!
DEFINITION. The terms statements are written in: the invariant of reachable states (10_state.md R40, R43), what is kept
by a command, and a packet's bytes as the host sees them.
-/

namespace Sys2Proof.Machine

/-- The values STATUS can hold: 0, or FAULT with one of the four causes (10_state.md R43, 60_exceptions.md R211). -/
abbrev State.StatusLegal (s : State) : Prop :=
  s.status = 0x0000#16 ∨ s.status = 0x0011#16 ∨ s.status = 0x0021#16 ∨ s.status = 0x0031#16 ∨ s.status = 0x0041#16

/-- What every reachable state keeps: PTR and LEN in 0..BUF_SIZE (10_state.md R40), STATUS a legal value with its
hardwired zeros (R43), BUF in canonical form (log 5) and inside its addresses (20_memory.md R60), and parameters that fit
together (00_scope.md R8, log 20). -/
structure State.Inv (s : State) : Prop where
  ptr_le : s.ptr ≤ s.params.bufSize
  len_le : s.len ≤ s.params.bufSize
  status : s.StatusLegal
  canonical : Memory.wf s.buf = true
  inside : Memory.inside s.params.bufSize s.buf = true
  params : s.params.Consistent

/-- ZPC accepts commands: STATUS.FAULT is 0 (60_exceptions.md R217). -/
abbrev State.InService (s : State) : Prop := s.faulted = false

/-- What no command touches: what is still to arrive, the number of power-ons, the parameters. -/
def State.SameOutside (s t : State) : Prop :=
  t.inputs = s.inputs ∧ t.powerOns = s.powerOns ∧ t.params = s.params

/-- Every byte of BUF reads as before. -/
def State.SameBytes (s t : State) : Prop := ∀ a, t.byteAt a = s.byteAt a

/-- Every byte of BUF outside the `n` bytes from `first` reads as before. -/
def State.SameBytesOutside (s t : State) (first n : Nat) : Prop :=
  ∀ a, (a < first ∨ first + n ≤ a) → t.byteAt a = s.byteAt a

/-- Nothing but BUF and RESULT differs. -/
def State.SameRegisters (s t : State) : Prop :=
  t.ptr = s.ptr ∧ t.len = s.len ∧ t.status = s.status ∧ s.SameOutside t

/-- The command answers its query with `v` in RESULT and changes nothing else (00_scope.md R16, "No effect"). -/
def State.AnswersOnly (s t : State) (v : Half) : Prop :=
  t.result = v ∧ s.SameBytes t ∧ s.SameRegisters t

/-- Nothing ZPC holds differs, whatever is still to arrive. -/
def State.SameZpc (s t : State) : Prop :=
  s.SameBytes t ∧ t.ptr = s.ptr ∧ t.len = s.len ∧ t.result = s.result ∧ t.status = s.status ∧
    t.powerOns = s.powerOns ∧ t.params = s.params

end Sys2Proof.Machine
end

