-- ==== Sys2Proof/Certificates/Slice0/Obligations.lean ====
section
/-!
DEFINITION. What is claimed of the model, statement by statement, in the words of the numbered rules of spec/. The
predicates before the statements restate parts of the spec without the machine's own functions.

The constants of 00_scope.md R8 are parameters: a statement speaks of `BUF_SIZE`, the header lengths, `CRC_MIN_VERSION`
and the checksum's constants of the state it is about, where a rule writes 256, 10, 12, 2, 0xA001, 0xFFFF or 0xA152. What
these are in `State.reset`, and that no step changes them, is `Obligations.ParametersAreTheSources`.
`Params.FromSource` says that they are the source's, and `Params.Consistent`, where a statement needs it, is met by the
source's (log 20).
-/

open Sys2Proof Sys2Proof.Machine

namespace Sys2Proof.Spec

/-- The command completes with a next state of which `P` holds. -/
def Completes (i : Instr) (s : State) (P : State → Prop) : Prop := ∃ t, exec i s = .next t ∧ P t

/-- `hi ‖ lo` as a number (00_scope.md R11, 20_memory.md R61). -/
def bigEndian (hi lo : Byte) : Nat := 256 * hi.toNat + lo.toNat

/-- The Version field as a number: bytes 4 and 5, big-endian (10_state.md R36). -/
def versionNumber (s : State) : Nat := bigEndian (s.byteAt 4) (s.byteAt 5)

/-- Version carries a CRC field (00_scope.md R14). -/
abbrev CarriesCrc (s : State) : Prop := s.params.crcMinVersion ≤ versionNumber s

/-- The header length by Version (00_scope.md R14, 10_state.md R38). -/
def headerBytes (s : State) : Nat :=
  if versionNumber s < s.params.crcMinVersion then s.params.hdrLenV1 else s.params.hdrLenV2

/-- The packet image with the sentinel in the CRC slot, high byte first, as far as the slot lies below LEN (42_crc.md
R172, R173). -/
def sentinelImage (s : State) : List Byte :=
  (List.range s.len).map fun a =>
    if a = 10 then s.params.crcSentinel.extractLsb' 8 8
    else if a = 11 then s.params.crcSentinel.extractLsb' 0 8
    else s.byteAt a

/-- The opcodes of form Z (30_encoding.md R84). -/
def zOpcodes : List (BitVec 8) :=
  [0x01#8, 0x11#8, 0x13#8, 0x15#8, 0x17#8, 0x19#8, 0x1B#8, 0x20#8, 0x22#8, 0x24#8, 0x26#8, 0x27#8, 0x30#8, 0x31#8]

/-- The opcodes of forms V, N and B, whose operand has no must-be-zero bits (30_encoding.md R84). -/
def openOpcodes : List (BitVec 8) :=
  [0x10#8, 0x12#8, 0x14#8, 0x16#8, 0x18#8, 0x1A#8, 0x21#8, 0x23#8, 0x25#8, 0x40#8]

/-- The four conditions of 30_encoding.md R85, on the bits of the word. -/
def Illegal (w : Word) : Prop :=
  (w.extractLsb' 24 8 ∉ zOpcodes ∧ w.extractLsb' 24 8 ∉ openOpcodes ∧ w.extractLsb' 24 8 ≠ 0x41#8) ∨
  w.extractLsb' 16 8 ≠ 0#8 ∨
  (w.extractLsb' 24 8 ∈ zOpcodes ∧ w.extractLsb' 0 16 ≠ 0#16) ∨
  (w.extractLsb' 24 8 = 0x41#8 ∧ w.extractLsb' 8 8 ≠ 0#8)

/-- `SET_<field>` of the field at `off` (40_header.md R101). -/
def StoresField (i : Instr) (off : Nat) (v : Half) : Prop :=
  ∀ s : State, s.InService → Completes i s fun t =>
    t.byteAt off = v.extractLsb' 8 8 ∧ t.byteAt (off + 1) = v.extractLsb' 0 8 ∧ t.result = 0#16 ∧
    s.SameBytesOutside t off 2 ∧ s.SameRegisters t

/-- `GET_<field>` of the field at `off` (40_header.md R101). -/
def ReadsField (i : Instr) (off : Nat) : Prop :=
  ∀ s : State, s.InService → Completes i s fun t =>
    t.result.toNat = bigEndian (s.byteAt off) (s.byteAt (off + 1)) ∧ s.SameBytes t ∧ s.SameRegisters t

/-- The offset, the write command and the read command of each field, as 10_state.md R36 lists them. -/
def offsetOf : HeaderField → Nat
  | .deviceId => 0 | .networkId => 2 | .version => 4 | .alerts => 6 | .type => 8 | .crc => 10

/-- See `offsetOf`. -/
def setCommand (f : HeaderField) (v : Half) : Instr :=
  match f with
  | .deviceId => .setDeviceId v | .networkId => .setNetworkId v | .version => .setVersion v
  | .alerts => .setAlerts v | .type => .setType v | .crc => .setCrc v

/-- See `offsetOf`. -/
def getCommand : HeaderField → Instr
  | .deviceId => .getDeviceId | .networkId => .getNetworkId | .version => .getVersion
  | .alerts => .getAlerts | .type => .getType | .crc => .getCrc

/-- The column "bytes written" of 20_memory.md R60. -/
def bytesWritten (i : Instr) (s : State) : List Nat :=
  match i with
  | .reset => [4, 5]
  | .setDeviceId _ => [0, 1]
  | .setNetworkId _ => [2, 3]
  | .setVersion _ => [4, 5]
  | .setAlerts _ => [6, 7]
  | .setType _ => [8, 9]
  | .setCrc _ => [10, 11]
  | .writeU16 _ => [s.effPtr, s.effPtr + 1]
  | .updateCrc => if CarriesCrc s then [10, 11] else []
  | .bufWrite i _ => [i]
  | .getDeviceId | .getNetworkId | .getVersion | .getAlerts | .getType | .getCrc | .headerLen | .readU16 | .skip _
  | .remaining | .setLength _ | .getLength | .rewind | .crcIsValid | .bufRead _ => []

/-- The column "bytes read" of 20_memory.md R60. -/
def bytesRead (i : Instr) (s : State) : List Nat :=
  match i with
  | .getDeviceId => [0, 1]
  | .getNetworkId => [2, 3]
  | .getVersion => [4, 5]
  | .getAlerts => [6, 7]
  | .getType => [8, 9]
  | .getCrc => [10, 11]
  | .headerLen | .writeU16 _ | .skip _ | .rewind => [4, 5]
  | .readU16 => [4, 5, s.effPtr, s.effPtr + 1]
  | .updateCrc => [4, 5] ++ List.range s.len
  | .crcIsValid => [4, 5, 10, 11] ++ List.range s.len
  | .bufRead i => if i < s.len then [i] else []
  | .reset | .setDeviceId _ | .setNetworkId _ | .setVersion _ | .setAlerts _ | .setType _ | .setCrc _ | .remaining
  | .setLength _ | .getLength | .bufWrite _ _ => []

/-- The commands of 20_memory.md R67 that change none of BUF, PTR and LEN. -/
def isQuery : Instr → Bool
  | .getDeviceId | .getNetworkId | .getVersion | .getAlerts | .getType | .getCrc | .headerLen | .remaining | .getLength
  | .bufRead _ | .crcIsValid => true
  | .reset | .setDeviceId _ | .setNetworkId _ | .setVersion _ | .setAlerts _ | .setType _ | .setCrc _ | .writeU16 _
  | .readU16 | .skip _ | .setLength _ | .rewind | .updateCrc | .bufWrite _ _ => false

/-- The commands that can change bytes 0 to 9: the five `SET_` commands of those fields, `RESET` and `BUF_WRITE`
(40_header.md R115). -/
def canChangeHeader : Instr → Bool
  | .reset | .setDeviceId _ | .setNetworkId _ | .setVersion _ | .setAlerts _ | .setType _ | .bufWrite _ _ => true
  | .getDeviceId | .getNetworkId | .getVersion | .getAlerts | .getType | .setCrc _ | .getCrc | .headerLen | .writeU16 _
  | .readU16 | .skip _ | .remaining | .setLength _ | .getLength | .rewind | .updateCrc | .crcIsValid | .bufRead _ => false

/-- The commands that can write the header region: `RESET`, the `SET_` field commands, `UPDATE_CRC` and `BUF_WRITE`
(10_state.md R41). -/
def canWriteHeaderRegion (i : Instr) : Bool :=
  match i with
  | .setCrc _ | .updateCrc => true
  | _ => canChangeHeader i

/-- A `WRITE_U16`. -/
def isWrite : Instr → Bool
  | .writeU16 _ => true
  | _ => false

/-- A field command that leaves Version alone (41_cursor.md R166). -/
def isFieldCommand : Instr → Bool
  | .setDeviceId _ | .getDeviceId | .setNetworkId _ | .getNetworkId | .getVersion | .setAlerts _ | .getAlerts | .setType _
  | .getType | .setCrc _ | .getCrc => true
  | _ => false

/-- One act of a host that builds a packet of readings: a field command, or `ADD_READING k, v` (45_payload.md R192). -/
abbrev Act := Instr ⊕ (Half × Half)

/-- The commands of the acts, in order. -/
def actCommands (acts : List Act) : List Instr :=
  acts.flatMap fun
    | .inl i => [i]
    | .inr p => addReading p.1 p.2

/-- The readings among the acts, in order. -/
def actReadings (acts : List Act) : List (Half × Half) := acts.filterMap Sum.getRight?

/-- A state reached by inputs, commands among them, from a power-on state, whatever the parameters that fit together
(10_state.md R40, 00_scope.md R8). -/
def Reachable (s : State) : Prop :=
  ∃ (k : Nat) (inputs : List Input) (params : Config.Params), params.Consistent ∧
    Host.Core.run Sys2Proof.core k { State.reset with inputs := inputs, params := params } = .next s

end Sys2Proof.Spec

open Sys2Proof.Spec

/-! ### One step, decoding, encoding -/

/-- 30_encoding.md R80, R89: the command on the port, decoded, is executed; ZPC adds only that the word is gone from the
port. -/
def Obligations.StepRunsDecodedCommand : Prop :=
  ∀ (s : State) (w : Word) (rest : List Input) (i : Instr),
    s.inputs = .command w :: rest → s.InService → decode w = .ok i → step s = exec i { s with inputs := rest }

/-- The model's choice (log 2): with nothing on the command port a step changes nothing. -/
def Obligations.IdlePortChangesNothing : Prop :=
  ∀ s : State, s.inputs = [] → step s = .next s

/-- 30_encoding.md R84, R87, 95_test_vectors.md: words written out in the spec decode to the commands named there. -/
def Obligations.SpecWordsDecode : Prop :=
  decode 0x10001234#32 = .ok (.setDeviceId 0x1234#16) ∧ decode 0x40000D34#32 = .ok (.bufWrite 13 0x34#8) ∧
  decode 0x21000E74#32 = .ok (.writeU16 0x0E74#16) ∧ decode 0x230000F4#32 = .ok (.skip 244) ∧
  decode 0x25000101#32 = .ok (.setLength 257) ∧ decode 0x4100000A#32 = .ok (.bufRead 10) ∧
  decode 0x30000000#32 = .ok .updateCrc ∧ decode 0x41000100#32 = .error .indexHighNotZero

/-- 30_encoding.md R84, R87, R89: decoding the word of a well-formed command gives the command back, with every operand. -/
def Obligations.DecodeInvertsEncode : Prop :=
  ∀ i : Instr, i.wf = true → decode (encode i) = .ok i

/-- 30_encoding.md R81, R85, R89: a word that decodes is the word of the command it decodes to, which is well-formed; so
no bit of a legal word is ignored. -/
def Obligations.DecodedWordIsItsEncoding : Prop :=
  ∀ (w : Word) (i : Instr), decode w = .ok i → i.wf = true ∧ encode i = w

/-- 30_encoding.md R85, 60_exceptions.md R213: a word meeting one of the four conditions faults with ILLEGAL_COMMAND and
has no other effect; every other word is a command and is executed. -/
def Obligations.IllegalWordsFault : Prop :=
  ∀ (s : State) (w : Word) (rest : List Input), s.inputs = .command w :: rest → s.InService →
    (Illegal w → step s = .next { s with inputs := rest, status := 0x0011#16 }) ∧
    (¬ Illegal w → ∃ i, decode w = .ok i ∧ step s = exec i { s with inputs := rest })

/-! ### Faults -/

/-- 60_exceptions.md R217: while FAULT is 1 every command word is refused undecoded and changes nothing, `RESET` among
them, as is every command of the map; a step that leaves FAULT at 0 took a power-on reset, and every power-on reset does. -/
def Obligations.FaultedMachineRefusesEveryWord : Prop :=
  ∀ s : State, s.faulted = true →
    (∀ (w : Word) (rest : List Input), s.inputs = .command w :: rest → step s = .next { s with inputs := rest }) ∧
    (∀ i : Instr, exec i s = .next s) ∧
    (∀ t : State, step s = .next t → (t.faulted = false ↔ ∃ rest, s.inputs = .powerOn :: rest))

/-- 60_exceptions.md R210, R212: a step that raises a fault records it in STATUS and changes nothing else; the word is
taken from the port. -/
def Obligations.FaultsArePrecise : Prop :=
  ∀ s t : State, s.InService → step s = .next t → t.faulted = true →
    t = { s with inputs := s.inputs.tail, status := t.status } ∧
    (t.status = 0x0011#16 ∨ t.status = 0x0021#16 ∨ t.status = 0x0031#16 ∨ t.status = 0x0041#16)

/-- 60_exceptions.md R211: which command word raises which cause, and on which condition. -/
def Obligations.FaultCausesAreAsListed : Prop :=
  ∀ (s t : State) (w : Word) (rest : List Input), s.inputs = .command w :: rest → s.InService → step s = .next t →
    t.faulted = true →
    (t.status = 0x0011#16 ∧ Illegal w) ∨
    ∃ i, decode w = .ok i ∧
      ((t.status = 0x0021#16 ∧ (((∃ v, i = .writeU16 v) ∨ i = .readU16) ∧ s.params.bufSize < s.effPtr + 2 ∨
          ∃ n, i = .skip n ∧ s.params.bufSize < s.effPtr + n)) ∨
       (t.status = 0x0031#16 ∧ ∃ n, i = .setLength n ∧ s.params.bufSize < n) ∨
       (t.status = 0x0041#16 ∧ ∃ j, i = .bufRead j ∧ s.len ≤ j))

/-- 60_exceptions.md R214, R215, R216: the range faults are raised on their conditions, and nothing but STATUS changes. -/
def Obligations.RangeChecksFault : Prop :=
  ∀ s : State, s.InService →
    (∀ v, s.params.bufSize < s.effPtr + 2 → exec (.writeU16 v) s = .next { s with status := 0x0021#16 }) ∧
    (s.params.bufSize < s.effPtr + 2 → exec .readU16 s = .next { s with status := 0x0021#16 }) ∧
    (∀ n, s.params.bufSize < s.effPtr + n → exec (.skip n) s = .next { s with status := 0x0021#16 }) ∧
    (∀ n, s.params.bufSize < n → exec (.setLength n) s = .next { s with status := 0x0031#16 }) ∧
    (∀ i, s.len ≤ i → exec (.bufRead i) s = .next { s with status := 0x0041#16 })

/-! ### Power-on reset and invariants -/

/-- 10_state.md R46, 70_reset_and_hazards.md R240: a power-on reset puts PTR, LEN, RESULT and STATUS at 0; as `State.reset`
has them. That BUF then reads as the free value of that power-on is the model's form of POR_BUF (log 4). -/
def Obligations.PowerOnResetValues : Prop :=
  (State.reset.ptr = 0 ∧ State.reset.len = 0 ∧ State.reset.result = 0#16 ∧ State.reset.status = 0#16 ∧
    ∀ a, State.reset.byteAt a = Config.porBuf 0 a) ∧
  ∀ (s : State) (rest : List Input), s.inputs = .powerOn :: rest → ∃ t, step s = .next t ∧
    t.ptr = 0 ∧ t.len = 0 ∧ t.result = 0#16 ∧ t.status = 0#16 ∧ t.inputs = rest ∧ t.params = s.params ∧
    t.powerOns = s.powerOns + 1 ∧ ∀ a, t.byteAt a = Config.porBuf t.powerOns a

/-- The state after power-on reset meets the invariant. -/
def Obligations.ResetMeetsInvariant : Prop :=
  State.reset.Inv

/-- 10_state.md R40, R43, 20_memory.md R60: every step keeps PTR and LEN in 0..BUF_SIZE, STATUS at a legal value with its
hardwired zeros, BUF in canonical form inside its addresses, and the parameters fitting together. -/
def Obligations.StepKeepsInvariant : Prop :=
  ∀ s t : State, s.Inv → step s = .next t → t.Inv

/-- 10_state.md R40: PTR and LEN lie in 0..BUF_SIZE in every state reached from power-on, whatever the inputs and parameters;
directly after a successful `WRITE_U16` or `SET_LENGTH` PTR is at most LEN, and after `READ_U16` or `SKIP` it may exceed
it. -/
def Obligations.CursorAndLengthStayInBuffer : Prop :=
  (∀ s : State, Reachable s → s.ptr ≤ s.params.bufSize ∧ s.len ≤ s.params.bufSize) ∧
  (∀ (s t : State) (v : Half), exec (.writeU16 v) s = .next t → t.InService → t.ptr ≤ t.len) ∧
  (∀ (s t : State) (n : Nat), exec (.setLength n) s = .next t → t.InService → t.ptr ≤ t.len) ∧
  (∃ s t : State, Reachable s ∧ exec .readU16 s = .next t ∧ t.InService ∧ t.len < t.ptr) ∧
  (∃ (s t : State) (n : Nat), Reachable s ∧ exec (.skip n) s = .next t ∧ t.InService ∧ t.len < t.ptr)

/-- 60_exceptions.md R210, R229, 00_scope.md R3: while the invariant holds every step has a next state; whatever word the
host presents, the machine never stops. -/
def Obligations.EveryStepHasANextState : Prop :=
  ∀ s : State, s.Inv → ∃ t, step s = .next t

/-! ### What commands read and write -/

/-- 20_memory.md R60, column "bytes written": a command changes no byte outside its row; nor what is still to arrive, the
number of power-ons or the parameters. -/
def Obligations.CommandsWriteOnlyTheirBytes : Prop :=
  ∀ (i : Instr) (s t : State), exec i s = .next t →
    s.SameOutside t ∧ ∀ a, a ∉ bytesWritten i s → t.byteAt a = s.byteAt a

/-- 20_memory.md R60, column "bytes read": two states that differ only in bytes outside a command's row end with the same
PTR, LEN, RESULT and STATUS, and with the same bytes wherever the command writes. -/
def Obligations.CommandsReadOnlyTheirBytes : Prop :=
  ∀ (i : Instr) (s s' t t' : State), s'.ptr = s.ptr → s'.len = s.len → s'.result = s.result → s'.status = s.status →
    s'.params = s.params → (∀ a ∈ bytesRead i s, s'.byteAt a = s.byteAt a) → exec i s = .next t → exec i s' = .next t' →
    t'.ptr = t.ptr ∧ t'.len = t.len ∧ t'.result = t.result ∧ t'.status = t.status ∧
      (t.InService → ∀ a ∈ bytesWritten i s, t'.byteAt a = t.byteAt a)

/-- 20_memory.md R67: a query changes none of BUF, PTR and LEN, and issuing it again gives the same state, RESULT among it;
`READ_U16` and `SKIP` of a positive count that succeed move PTR forward. -/
def Obligations.QueriesHaveNoSideEffect : Prop :=
  (∀ (i : Instr) (s t : State), isQuery i = true → exec i s = .next t →
    s.SameBytes t ∧ t.ptr = s.ptr ∧ t.len = s.len ∧ exec i t = .next t) ∧
  (∀ s t : State, s.InService → exec .readU16 s = .next t → t.InService → s.ptr < t.ptr) ∧
  (∀ (s t : State) (n : Nat), 0 < n → s.InService → exec (.skip n) s = .next t → t.InService → s.ptr < t.ptr)

/-- 20_memory.md R62, R61: a 16-bit value written by `WRITE_U16` or a field command is read bytewise high byte first, and
two bytes written by `BUF_WRITE` are read as one 16-bit value the same way, by `READ_U16` and the field commands. -/
def Obligations.MixedWidthViewsAgree : Prop :=
  (∀ (s t : State) (v : Half), s.InService → exec (.writeU16 v) s = .next t → t.InService →
    Completes (.bufRead s.effPtr) t (fun u => u.result = (v.extractLsb' 8 8).setWidth 16) ∧
    Completes (.bufRead (s.effPtr + 1)) t (fun u => u.result = (v.extractLsb' 0 8).setWidth 16)) ∧
  (∀ (f : HeaderField) (s t : State) (v : Half), s.params.Consistent → s.InService → offsetOf f + 1 < s.len →
    exec (setCommand f v) s = .next t →
    Completes (.bufRead (offsetOf f)) t (fun u => u.result = (v.extractLsb' 8 8).setWidth 16) ∧
    Completes (.bufRead (offsetOf f + 1)) t (fun u => u.result = (v.extractLsb' 0 8).setWidth 16)) ∧
  (∀ (s s₁ s₂ : State) (b c : Byte), s.params.Consistent → s.InService → exec (.bufWrite s.effPtr b) s = .next s₁ →
    exec (.bufWrite (s.effPtr + 1) c) s₁ = .next s₂ →
    Completes .readU16 s₂ fun u => u.result.toNat = bigEndian b c) ∧
  (∀ (f : HeaderField) (s s₁ s₂ : State) (b c : Byte), s.InService → exec (.bufWrite (offsetOf f) b) s = .next s₁ →
    exec (.bufWrite (offsetOf f + 1) c) s₁ = .next s₂ →
    Completes (getCommand f) s₂ fun u => u.result.toNat = bigEndian b c)

/-! ### Header commands -/

/-- 40_header.md R101: each `SET_` command stores its value big-endian at the offset of 10_state.md R36, each `GET_`
command reads it there, from every state in service, and neither touches PTR, LEN or any other byte. -/
def Obligations.FieldCommandsAreDirect : Prop :=
  (∀ v, StoresField (.setDeviceId v) 0 v) ∧ (∀ v, StoresField (.setNetworkId v) 2 v) ∧
  (∀ v, StoresField (.setVersion v) 4 v) ∧ (∀ v, StoresField (.setAlerts v) 6 v) ∧
  (∀ v, StoresField (.setType v) 8 v) ∧ (∀ v, StoresField (.setCrc v) 10 v) ∧
  ReadsField .getDeviceId 0 ∧ ReadsField .getNetworkId 2 ∧ ReadsField .getVersion 4 ∧ ReadsField .getAlerts 6 ∧
  ReadsField .getType 8 ∧ ReadsField .getCrc 10


/-- 40_header.md R100, 70_reset_and_hazards.md R241: `RESET` zeroes PTR and LEN and writes `PROTOCOL_VERSION` into Version,
and nothing else. -/
def Obligations.ResetCommandEffect : Prop :=
  ∀ s : State, s.InService → Completes .reset s fun t =>
    t.ptr = 0 ∧ t.len = 0 ∧ t.result = 0#16 ∧ versionNumber t = s.params.protocolVersion.toNat ∧
    t.byteAt 4 = s.params.protocolVersion.extractLsb' 8 8 ∧ t.byteAt 5 = s.params.protocolVersion.extractLsb' 0 8 ∧
    s.SameBytesOutside t 4 2 ∧ t.status = s.status ∧ s.SameOutside t

/-- 10_state.md R38, 00_scope.md R14: the header length and the effective cursor are functions of bytes 4 and 5 and PTR as
they stand, 10 bytes for version 1 and 12 for version 2 and above at the source's constants; changing Version moves
neither PTR, LEN nor any payload byte. -/
def Obligations.HeaderLengthFollowsVersion : Prop :=
  (∀ s : State, s.headerLen = headerBytes s ∧ s.effPtr = max s.ptr (headerBytes s)) ∧
  (∀ s : State, s.params.FromSource → s.headerLen = if versionNumber s < 2 then 10 else 12) ∧
  (∀ (s : State) (v : Half), s.InService → Completes (.setVersion v) s fun t =>
    t.headerLen = (if v.toNat < s.params.crcMinVersion then s.params.hdrLenV1 else s.params.hdrLenV2) ∧
    s.SameBytesOutside t 4 2 ∧ t.ptr = s.ptr ∧ t.len = s.len)

/-- 40_header.md R114: `HEADER_LEN` answers the header length by Version, at the source's constants 10 when Version is
below 2 and 12 otherwise, and changes nothing else. -/
def Obligations.HeaderLenAnswersTenOrTwelve : Prop :=
  ∀ s : State, s.InService → Completes .headerLen s fun t =>
    s.AnswersOnly t (BitVec.ofNat 16 (headerBytes s)) ∧
    (s.params.FromSource → s.AnswersOnly t (if versionNumber s < 2 then 10#16 else 12#16))

/-- 40_header.md R115: after the five `SET_` commands in any order the five `GET_` commands answer the values set, as long
as bytes 0 to 9 stay; and only seven commands can change those bytes. -/
def Obligations.HeaderRoundTrip : Prop :=
  (∀ (s : State) (d n v a t : Half) (l : List Instr), s.InService →
    l.Perm [.setDeviceId d, .setNetworkId n, .setVersion v, .setAlerts a, .setType t] →
    ∃ u, s.issueAll l = .next u ∧
      ∀ u' : State, u'.InService → (∀ x < 10, u'.byteAt x = u.byteAt x) →
        Completes .getDeviceId u' (·.result = d) ∧ Completes .getNetworkId u' (·.result = n) ∧
        Completes .getVersion u' (·.result = v) ∧ Completes .getAlerts u' (·.result = a) ∧
        Completes .getType u' (·.result = t)) ∧
  (∀ (i : Instr) (s t : State), s.params.Consistent → canChangeHeader i = false → exec i s = .next t →
    ∀ x < 10, t.byteAt x = s.byteAt x) ∧
  (∀ s t : State, exec .reset s = .next t → ∀ x < 10, x ≠ 4 → x ≠ 5 → t.byteAt x = s.byteAt x)

/-- 10_state.md R41: `WRITE_U16` never writes below the header length, `READ_U16` never answers from there, and only the
commands named can write there. -/
def Obligations.PayloadCommandsSpareTheHeader : Prop :=
  (∀ (s t : State) (v : Half), exec (.writeU16 v) s = .next t → ∀ x < s.headerLen, t.byteAt x = s.byteAt x) ∧
  (∀ s s' t t' : State, s.InService → s'.InService → s'.ptr = s.ptr → s'.headerLen = s.headerLen →
    s'.params.bufSize = s.params.bufSize →
    (∀ x, s.headerLen ≤ x → s'.byteAt x = s.byteAt x) → exec .readU16 s = .next t → exec .readU16 s' = .next t' →
    t.InService → t'.InService ∧ t'.result = t.result) ∧
  (∀ (i : Instr) (s t : State), canWriteHeaderRegion i = false → exec i s = .next t →
    ∀ x < s.headerLen, t.byteAt x = s.byteAt x)

/-! ### Cursor, length and buffer commands -/

/-- 41_cursor.md R130, R131: `WRITE_U16` stores its value big-endian at the effective cursor, moves PTR past it, updates LEN
by either reading of `LEN_ON_WRITE`, and changes no other byte. -/
def Obligations.WriteU16StoresAtTheCursor : Prop :=
  ∀ (s : State) (v : Half), s.InService → s.effPtr + 2 ≤ s.params.bufSize → Completes (.writeU16 v) s fun t =>
    t.byteAt s.effPtr = v.extractLsb' 8 8 ∧ t.byteAt (s.effPtr + 1) = v.extractLsb' 0 8 ∧
    s.SameBytesOutside t s.effPtr 2 ∧ t.ptr = s.effPtr + 2 ∧
    t.len = (if s.params.lenOnWrite = .max then max s.len (s.effPtr + 2) else s.effPtr + 2) ∧
    (s.len ≤ s.effPtr + 2 → t.len = s.effPtr + 2) ∧
    t.result = 0#16 ∧ t.status = s.status ∧ s.SameOutside t

/-- 41_cursor.md R135: `READ_U16` answers the word at the effective cursor, whatever LEN is, and moves PTR past it. -/
def Obligations.ReadU16ReadsAtTheCursor : Prop :=
  ∀ s : State, s.InService → s.effPtr + 2 ≤ s.params.bufSize → Completes .readU16 s fun t =>
    t.result.toNat = bigEndian (s.byteAt s.effPtr) (s.byteAt (s.effPtr + 1)) ∧ t.ptr = s.effPtr + 2 ∧
    t.len = s.len ∧ s.SameBytes t ∧ t.status = s.status ∧ s.SameOutside t

/-- 41_cursor.md R140: `SKIP n` moves PTR from the effective cursor by `n`. -/
def Obligations.SkipMovesTheCursor : Prop :=
  ∀ (s : State) (n : Nat), s.InService → s.effPtr + n ≤ s.params.bufSize → Completes (.skip n) s fun t =>
    t.ptr = s.effPtr + n ∧ t.len = s.len ∧ t.result = 0#16 ∧ s.SameBytes t ∧ t.status = s.status ∧ s.SameOutside t

/-- 41_cursor.md R145, R167: `REMAINING` answers LEN - PTR, PTR as stored, as a signed 16-bit number, in -BUF_SIZE..BUF_SIZE. -/
def Obligations.RemainingIsTheSignedDifference : Prop :=
  ∀ s : State, s.params.bufSize < 2 ^ 15 → s.InService → s.ptr ≤ s.params.bufSize → s.len ≤ s.params.bufSize →
    Completes .remaining s fun t =>
    t.result.toInt = (s.len : Int) - (s.ptr : Int) ∧
    -(s.params.bufSize : Int) ≤ t.result.toInt ∧ t.result.toInt ≤ (s.params.bufSize : Int) ∧
    s.SameBytes t ∧ s.SameRegisters t

/-- 41_cursor.md R150: `SET_LENGTH n` sets LEN and clamps PTR to it. -/
def Obligations.SetLengthClampsTheCursor : Prop :=
  ∀ (s : State) (n : Nat), s.InService → n ≤ s.params.bufSize → Completes (.setLength n) s fun t =>
    t.len = n ∧ t.ptr = min s.ptr n ∧ t.result = 0#16 ∧ s.SameBytes t ∧ t.status = s.status ∧ s.SameOutside t

/-- 41_cursor.md R152: `GET_LENGTH` answers LEN. -/
def Obligations.GetLengthAnswersLen : Prop :=
  ∀ s : State, s.InService → s.len < 2 ^ 16 → Completes .getLength s fun t =>
    t.result.toNat = s.len ∧ s.SameBytes t ∧ s.SameRegisters t

/-- 41_cursor.md R155: `REWIND` puts PTR at the header length of the moment, forwards or backwards. -/
def Obligations.RewindGoesToTheHeaderEnd : Prop :=
  ∀ s : State, s.InService → Completes .rewind s fun t =>
    t.ptr = headerBytes s ∧ t.len = s.len ∧ t.result = 0#16 ∧ s.SameBytes t ∧ t.status = s.status ∧ s.SameOutside t

/-- 41_cursor.md R160: `BUF_WRITE i, b` writes one byte, anywhere in BUF, and leaves PTR and LEN alone. -/
def Obligations.BufWriteStoresOneByte : Prop :=
  ∀ (s : State) (i : Nat) (b : Byte), s.InService → i < s.params.bufSize → Completes (.bufWrite i b) s fun t =>
    t.byteAt i = b ∧ s.SameBytesOutside t i 1 ∧ t.result = 0#16 ∧ s.SameRegisters t

/-- 41_cursor.md R162: `BUF_READ i` answers a byte of the packet, zero-extended. -/
def Obligations.BufReadAnswersOneByte : Prop :=
  ∀ (s : State) (i : Nat), s.InService → i < s.len → i < s.params.bufSize → Completes (.bufRead i) s fun t =>
    t.result.toNat = (s.byteAt i).toNat ∧ s.SameBytes t ∧ s.SameRegisters t

/-- 41_cursor.md R165, 20_memory.md R69: `BUF_READ 0` to `BUF_READ LEN-1` answer exactly the packet image, and `BUF_READ` of
an index at or past LEN answers nothing. An index is 8 bits (30_encoding.md R82), so LEN is at most 256. -/
def Obligations.PacketImageIsReadOut : Prop :=
  ∀ s : State, s.InService → s.len ≤ 256 → s.len ≤ s.params.bufSize →
    (∃ u, State.readOut 0 s.len s = some ((List.range s.len).map fun a => (s.byteAt a).setWidth 16, u) ∧
      s.SameBytes u ∧ u.len = s.len ∧ u.ptr = s.ptr ∧ u.InService) ∧
    (∀ i, s.len ≤ i → Completes (.bufRead i) s fun t => t.result = s.result ∧ t.faulted = true)

/-- 41_cursor.md R166, for at least one write: from `RESET`, `k` writes among field commands give LEN = PTR = HL() + 2k, and
a further write that does not fit faults. (With no write LEN is 0, `Obligations.HeaderOnlyPacketIsEmpty`.) -/
def Obligations.PayloadLengthFromWrites : Prop :=
  ∀ (s₀ s : State) (l : List Instr), s₀.params.Consistent → s₀.InService → exec .reset s₀ = .next s →
    (∀ i ∈ l, isWrite i = true ∨ isFieldCommand i = true) → 0 < l.countP isWrite →
    s.headerLen + 2 * l.countP isWrite ≤ s.params.bufSize →
    ∃ t, s.issueAll l = .next t ∧ t.InService ∧ t.len = s.headerLen + 2 * l.countP isWrite ∧ t.ptr = t.len ∧
      (s.params.bufSize < s.headerLen + 2 * l.countP isWrite + 2 →
        ∀ v, exec (.writeU16 v) t = .next { t with status := 0x0021#16 })

/-- 70_reset_and_hazards.md R247: after `RESET` and field commands, Version's among them, LEN is 0 and `GET_LENGTH` answers
0. -/
def Obligations.HeaderOnlyPacketIsEmpty : Prop :=
  ∀ (s₀ s : State) (l : List Instr), s₀.InService → exec .reset s₀ = .next s →
    (∀ i ∈ l, isFieldCommand i = true ∨ ∃ v, i = .setVersion v) →
    ∃ t, s.issueAll l = .next t ∧ t.len = 0 ∧ t.ptr = 0 ∧ Completes .getLength t (·.result = 0#16)

/-! ### Checksum commands -/

/-- 42_crc.md R171: at the default parameters, the checksums of the empty sequence, of 00, 01, FF, 01 02 and of the ASCII
string 123456789. -/
def Obligations.Crc16ReferenceValues : Prop :=
  ∀ p : Config.Params, p.FromSource →
    crc16 p [] = 0xFFFF#16 ∧ crc16 p [0x00#8] = 0x40BF#16 ∧ crc16 p [0x01#8] = 0x807E#16 ∧
    crc16 p [0xFF#8] = 0x00FF#16 ∧ crc16 p [0x01#8, 0x02#8] = 0xE181#16 ∧
    crc16 p [0x31#8, 0x32#8, 0x33#8, 0x34#8, 0x35#8, 0x36#8, 0x37#8, 0x38#8, 0x39#8] = 0x4B37#16

/-- 42_crc.md R175, R172, R173, R174: at a Version that carries a CRC `UPDATE_CRC` stores the checksum of the packet image
with the sentinel in its CRC slot, big-endian at bytes 10 and 11, and answers it; below, it changes nothing and answers
0. -/
def Obligations.UpdateCrcStoresTheChecksum : Prop :=
  ∀ s : State, s.InService → s.len ≤ s.params.bufSize → Completes .updateCrc s fun t =>
    s.SameRegisters t ∧
    (¬ CarriesCrc s → t.result = 0#16 ∧ s.SameBytes t) ∧
    (CarriesCrc s → t.result = crc16 s.params (sentinelImage s) ∧
      t.byteAt 10 = (crc16 s.params (sentinelImage s)).extractLsb' 8 8 ∧
      t.byteAt 11 = (crc16 s.params (sentinelImage s)).extractLsb' 0 8 ∧ s.SameBytesOutside t 10 2)

/-- 42_crc.md R180, R181: `CRC_IS_VALID` answers 1 exactly when Version carries no CRC or the checksum is what bytes 10 and
11 hold, else 0; it changes nothing, STATUS among it. -/
def Obligations.CrcIsValidComparesTheChecksum : Prop :=
  ∀ s : State, s.InService → s.len ≤ s.params.bufSize → Completes .crcIsValid s fun t =>
    s.AnswersOnly t (if ¬ CarriesCrc s ∨
        (crc16 s.params (sentinelImage s)).toNat = bigEndian (s.byteAt 10) (s.byteAt 11)
      then 1#16 else 0#16)

/-- 42_crc.md R182: `UPDATE_CRC` at a Version that carries a CRC, then `CRC_IS_VALID` with nothing it depends on changed in
between, answers 1, for every LEN. -/
def Obligations.UpdateThenCheckIsValid : Prop :=
  ∀ s t t' : State, s.InService → s.len ≤ s.params.bufSize → CarriesCrc s → exec .updateCrc s = .next t → t'.InService →
    t'.params = t.params → t'.len = t.len →
    (∀ a, a < t.len ∨ a = 4 ∨ a = 5 ∨ a = 10 ∨ a = 11 → t'.byteAt a = t.byteAt a) →
    Completes .crcIsValid t' (·.result = 1#16)

/-- 42_crc.md R183: after `UPDATE_CRC` at a Version that carries a CRC, changing any one byte of the packet or of the CRC
field to any other value makes `CRC_IS_VALID` answer 0, except that it answers 1 where the change leaves Version below
`CRC_MIN_VERSION`. R183 itself rests its reach to every packet, beyond those it checked, on general knowledge ("every error
confined to 16 or fewer consecutive bits [from general knowledge, not in source]", 93_implementation_defined.md G4), and
so does the loop of R170 (log 12). Of the polynomial only what G4 asks is assumed: a nonzero constant term, bit 15 of its
bit-reversed form. -/
def Obligations.SingleByteChangeIsDetected : Prop :=
  ∀ (s t u : State) (a : Nat) (b : Byte), s.params.crcPoly[15] = true → s.InService → s.len ≤ s.params.bufSize →
    CarriesCrc s → exec .updateCrc s = .next t → (a < t.len ∨ a = 10 ∨ a = 11) → b ≠ t.byteAt a →
    exec (.bufWrite a b) t = .next u →
    (CarriesCrc u → Completes .crcIsValid u (·.result = 0#16)) ∧
    (¬ CarriesCrc u → (a = 4 ∨ a = 5) ∧ Completes .crcIsValid u (·.result = 1#16))

/-- 42_crc.md R184: at a Version that carries no CRC `CRC_IS_VALID` answers 1 whatever the payload, and `UPDATE_CRC` changes
nothing. -/
def Obligations.VersionOneFramesAlwaysValid : Prop :=
  ∀ s : State, s.InService → s.len ≤ s.params.bufSize → ¬ CarriesCrc s →
    Completes .crcIsValid s (·.result = 1#16) ∧
    Completes .updateCrc s fun t => s.SameBytes t ∧ s.SameRegisters t

/-! ### The host's procedures -/

/-- 45_payload.md R190, R194, R195, R196: `ALL()` answers the whole pairs of the payload in order, dropping 1 to 3 trailing
bytes, and `FIND(k)` answers the first pair of kind `k`; neither writes BUF or LEN. -/
def Obligations.ScansAnswerTheWholePairs : Prop :=
  ∀ s : State, s.Inv → s.InService →
    (∃ u, s.allReadings = some (s.pairs, u) ∧ s.SameBytes u ∧ u.len = s.len ∧ u.InService) ∧
    ∀ k, ∃ u, s.find k = some ((s.pairs.find? fun p => decide (p.1 = k)).map (·.2), u) ∧
      s.SameBytes u ∧ u.len = s.len ∧ u.InService

/-- 45_payload.md R197: from every state in service a scan ends, within (BUF_SIZE - HDR_LEN_V1) div 4 pairs, 61 at the
source's constants, with no fault; on a packet with zero readings `has_<kind>()` is false and `get_<kind>(default)` is the
default. -/
def Obligations.ScansNeverFault : Prop :=
  ∀ s : State, s.Inv → s.InService →
    (∃ ps u, s.allReadings = some (ps, u) ∧ u.InService ∧ ps.length ≤ (s.params.bufSize - s.params.hdrLenV1) / 4 ∧
      (s.params.FromSource → ps.length ≤ 61)) ∧
    (∀ k, ∃ r u, s.find k = some (r, u) ∧ u.InService) ∧
    (s.len < headerBytes s + 4 → ∀ kind default,
      (∃ u, s.hasKind kind = some (false, u)) ∧ ∃ u, s.getKind kind default = some (default, u))

/-- 45_payload.md R201: readings added to a fresh packet, with field commands among them that leave Version alone (and, at
a Version with no CRC field, `SET_CRC` not among them, for it writes the first payload word, 40_header.md R112), are what
`ALL()` answers, in order, duplicates kept, and `FIND(k)` answers the first value of its kind. -/
def Obligations.ReadingsRoundTrip : Prop :=
  ∀ (s₀ s : State) (acts : List Act), s₀.params.Consistent → s₀.InService → exec .reset s₀ = .next s →
    (∀ i, .inl i ∈ acts → isFieldCommand i = true ∧ (CarriesCrc s ∨ ∀ v, i ≠ .setCrc v)) →
    s.headerLen + 4 * (actReadings acts).length ≤ s.params.bufSize →
    ∃ t, s.issueAll (actCommands acts) = .next t ∧
      (∃ u, t.allReadings = some (actReadings acts, u)) ∧
      ∀ k, ∃ u, t.find k = some (((actReadings acts).find? fun p => decide (p.1 = k)).map (·.2), u)

/-- 45_payload.md R198: the codec part of `send` hands the radio the exact packet image, with the header fields given and,
where `PROTOCOL_VERSION` carries one, a valid checksum; LEN is not touched. An index is 8 bits (30_encoding.md R82), so
LEN is at most 256. -/
def Obligations.SendHandsOverTheCheckedPacket : Prop :=
  ∀ (s : State) (t id alerts : Half), s.Inv → s.InService → s.len ≤ 256 →
    ∃ bytes u, s.send t id alerts = some (bytes, u) ∧
      bytes = (List.range s.len).map (fun a => (u.byteAt a).setWidth 16) ∧ u.len = s.len ∧ u.ptr = s.ptr ∧ u.InService ∧
      u.getField .deviceId = id ∧ u.getField .networkId = 0#16 ∧ u.getField .version = s.params.protocolVersion ∧
      u.getField .alerts = alerts ∧ u.getField .type = t ∧ (∀ a, 12 ≤ a → u.byteAt a = s.byteAt a) ∧
      Completes .crcIsValid u (·.result = 1#16)

/-- 45_payload.md R200, 30_encoding.md R88: receiving a frame leaves exactly its bytes as the packet, and answers what
`CRC_IS_VALID` answers on it. An index is 8 bits (30_encoding.md R82), so a frame has at most 256 bytes. -/
def Obligations.ReceiveLoadsTheFrame : Prop :=
  ∀ (s : State) (bytes : List Byte), s.InService → bytes.length ≤ 256 → bytes.length ≤ s.params.bufSize →
    ∃ r u, s.receive bytes = some (r, u) ∧ u.image = bytes ∧ u.len = bytes.length ∧ u.ptr = min s.ptr bytes.length ∧
      (∀ a, bytes.length ≤ a → u.byteAt a = s.byteAt a) ∧ Completes .crcIsValid u (·.result = r)

/-! ### Parameters -/

/-- The model's choice (logs 6, 7): 00_scope.md R8 gives each parameter a default only; that `State.reset` holds the
defaults, the source's values and those of the two OPEN parameters, and that no step changes a parameter, is how the model
takes them. -/
def Obligations.ParametersAreTheSources : Prop :=
  (State.reset.params.bufSize = 256 ∧ State.reset.params.hdrLenV1 = 10 ∧ State.reset.params.hdrLenV2 = 12 ∧
    State.reset.params.crcMinVersion = 2 ∧ State.reset.params.crcPoly = 0xA001#16 ∧
    State.reset.params.crcSeed = 0xFFFF#16 ∧ State.reset.params.crcSentinel = 0xA152#16 ∧
    State.reset.params.protocolVersion = 2#16 ∧ State.reset.params.lenOnWrite = .max) ∧
  ∀ s t : State, step s = .next t → t.params = s.params
end

