-- ==== Sys2Proof/Laws/Decode.lean ====
section
/-!
SUPPORT. The fields of a command word built from its parts (30_encoding.md R81, R82).
-/

namespace Sys2Proof

@[simp] theorem opcField_commandWord (opc : BitVec 8) (imm : Half) : opcField (commandWord opc imm) = opc := by
  ext i hi
  have h0 : imm.getLsbD (24 + i) = false := BitVec.getLsbD_of_ge imm (24 + i) (by omega)
  simp [opcField, commandWord, h0, show 24 + i < 32 by omega, BitVec.getLsbD_eq_getElem hi]

@[simp] theorem rsvField_commandWord (opc : BitVec 8) (imm : Half) : rsvField (commandWord opc imm) = 0#8 := by
  ext i hi
  simp [rsvField, commandWord]
  omega

@[simp] theorem immField_commandWord (opc : BitVec 8) (imm : Half) : immField (commandWord opc imm) = imm := by
  ext i hi
  simp [immField, commandWord, show i < 24 by omega, BitVec.getLsbD_eq_getElem hi]
  omega

/-- A word with RSV 0 is built from its opcode and its operand (30_encoding.md R81). -/
theorem commandWord_fields {w : Word} (h : rsvField w = 0#8) : commandWord (opcField w) (immField w) = w := by
  ext i hi
  have hr : ∀ j, j < 8 → w.getLsbD (16 + j) = false := fun j hj => by
    simpa [rsvField, hj] using congrArg (fun x : BitVec 8 => x.getLsbD j) h
  have hr' : 16 ≤ i → i < 24 → w[i] = false := fun h1 h2 => by
    have := hr (i - 16) (by omega)
    rwa [show 16 + (i - 16) = i by omega, BitVec.getLsbD_eq_getElem hi] at this
  by_cases h1 : i < 16
  · simp [opcField, immField, commandWord, h1, hi, show i < 24 by omega]
  · by_cases h2 : i < 24
    · simp [opcField, immField, commandWord, h1, h2, hr' (by omega) h2]
    · simp [opcField, immField, commandWord, h1, h2, hi, show i - 24 < 8 by omega, show 24 + (i - 24) = i by omega]

@[simp] theorem immHigh_indexAndByte (i b : BitVec 8) : immHigh (indexAndByte i b) = i := by
  ext j hj
  simp [immHigh, indexAndByte, show 8 + j < 16 by omega, BitVec.getLsbD_eq_getElem hj]

@[simp] theorem immLow_indexAndByte (i b : BitVec 8) : immLow (indexAndByte i b) = b := by
  ext j hj
  simp [immLow, indexAndByte, hj]
  omega

/-- The two halves of an operand make it up. -/
@[simp] theorem indexAndByte_halves (imm : Half) : indexAndByte (immHigh imm) (immLow imm) = imm := by
  ext i hi
  by_cases h1 : i < 8
  · simp [indexAndByte, immHigh, immLow, hi, h1]
  · simp [indexAndByte, immHigh, immLow, hi, h1, show i - 8 < 8 by omega, show 8 + (i - 8) = i by omega]

/-- Two bytes side by side, as a number. -/
theorem indexAndByte_toNat (i b : BitVec 8) : (indexAndByte i b).toNat = 256 * i.toNat + b.toNat := by
  have hi := i.isLt
  have hb := b.isLt
  rw [indexAndByte, BitVec.toNat_or, BitVec.toNat_shiftLeft, BitVec.toNat_setWidth, BitVec.toNat_setWidth,
    Nat.mod_eq_of_lt (a := b.toNat) (by omega), Nat.mod_eq_of_lt (a := i.toNat) (by omega), Nat.shiftLeft_eq,
    Nat.mod_eq_of_lt (by omega), ← Nat.shiftLeft_eq, ← Nat.shiftLeft_add_eq_or_of_lt hb, Nat.shiftLeft_eq]
  omega

/-- A row found in the opcode map stands there under its opcode. -/
theorem mem_of_lookup {α β : Type} [BEq α] [LawfulBEq α] {l : List (α × β)} {a : α} {b : β} (h : l.lookup a = some b) :
    (a, b) ∈ l := by
  induction l with
  | nil => simp at h
  | cons hd tl ih =>
    obtain ⟨k, c⟩ := hd
    by_cases hk : a = k
    · subst hk
      simp at h
      simp [h]
    · rw [List.lookup_cons, beq_false_of_ne hk] at h
      exact List.mem_cons_of_mem _ (ih h)

/-- Decoding a word with RSV 0 looks its opcode up and reads its operand (30_encoding.md R89). -/
theorem decode_commandWord {opc : BitVec 8} {row : FormRow} (h : opcodeMap.lookup opc = some row) (imm : Half) :
    decode (commandWord opc imm) = readOperands row imm := by
  simp [decode, h]

end Sys2Proof
end

