-- ==== Sys2Proof/Laws/State.lean ====
section
/-!
SUPPORT. One lemma per field per update of the state, each true by definition.
-/

namespace Sys2Proof.Machine

variable (s : State)

/-! ### setByte -/

@[simp] theorem setByte_buf (a : Nat) (b : Byte) : (s.setByte a b).buf = Memory.store s.buf a b := rfl
@[simp] theorem setByte_ptr (a : Nat) (b : Byte) : (s.setByte a b).ptr = s.ptr := rfl
@[simp] theorem setByte_len (a : Nat) (b : Byte) : (s.setByte a b).len = s.len := rfl
@[simp] theorem setByte_result (a : Nat) (b : Byte) : (s.setByte a b).result = s.result := rfl
@[simp] theorem setByte_status (a : Nat) (b : Byte) : (s.setByte a b).status = s.status := rfl
@[simp] theorem setByte_inputs (a : Nat) (b : Byte) : (s.setByte a b).inputs = s.inputs := rfl
@[simp] theorem setByte_powerOns (a : Nat) (b : Byte) : (s.setByte a b).powerOns = s.powerOns := rfl
@[simp] theorem setByte_params (a : Nat) (b : Byte) : (s.setByte a b).params = s.params := rfl

/-! ### setPtr -/

@[simp] theorem setPtr_buf (p : Nat) : (s.setPtr p).buf = s.buf := rfl
@[simp] theorem setPtr_ptr (p : Nat) : (s.setPtr p).ptr = p := rfl
@[simp] theorem setPtr_len (p : Nat) : (s.setPtr p).len = s.len := rfl
@[simp] theorem setPtr_result (p : Nat) : (s.setPtr p).result = s.result := rfl
@[simp] theorem setPtr_status (p : Nat) : (s.setPtr p).status = s.status := rfl
@[simp] theorem setPtr_inputs (p : Nat) : (s.setPtr p).inputs = s.inputs := rfl
@[simp] theorem setPtr_powerOns (p : Nat) : (s.setPtr p).powerOns = s.powerOns := rfl
@[simp] theorem setPtr_params (p : Nat) : (s.setPtr p).params = s.params := rfl

/-! ### setLen -/

@[simp] theorem setLen_buf (n : Nat) : (s.setLen n).buf = s.buf := rfl
@[simp] theorem setLen_ptr (n : Nat) : (s.setLen n).ptr = s.ptr := rfl
@[simp] theorem setLen_len (n : Nat) : (s.setLen n).len = n := rfl
@[simp] theorem setLen_result (n : Nat) : (s.setLen n).result = s.result := rfl
@[simp] theorem setLen_status (n : Nat) : (s.setLen n).status = s.status := rfl
@[simp] theorem setLen_inputs (n : Nat) : (s.setLen n).inputs = s.inputs := rfl
@[simp] theorem setLen_powerOns (n : Nat) : (s.setLen n).powerOns = s.powerOns := rfl
@[simp] theorem setLen_params (n : Nat) : (s.setLen n).params = s.params := rfl

/-! ### respond -/

@[simp] theorem respond_buf (v : Half) : (s.respond v).buf = s.buf := rfl
@[simp] theorem respond_ptr (v : Half) : (s.respond v).ptr = s.ptr := rfl
@[simp] theorem respond_len (v : Half) : (s.respond v).len = s.len := rfl
@[simp] theorem respond_result (v : Half) : (s.respond v).result = v := rfl
@[simp] theorem respond_status (v : Half) : (s.respond v).status = s.status := rfl
@[simp] theorem respond_inputs (v : Half) : (s.respond v).inputs = s.inputs := rfl
@[simp] theorem respond_powerOns (v : Half) : (s.respond v).powerOns = s.powerOns := rfl
@[simp] theorem respond_params (v : Half) : (s.respond v).params = s.params := rfl

/-! ### withFault -/

@[simp] theorem withFault_buf (c : Cause) : (s.withFault c).buf = s.buf := rfl
@[simp] theorem withFault_ptr (c : Cause) : (s.withFault c).ptr = s.ptr := rfl
@[simp] theorem withFault_len (c : Cause) : (s.withFault c).len = s.len := rfl
@[simp] theorem withFault_result (c : Cause) : (s.withFault c).result = s.result := rfl
@[simp] theorem withFault_status (c : Cause) : (s.withFault c).status = faultStatus c := rfl
@[simp] theorem withFault_inputs (c : Cause) : (s.withFault c).inputs = s.inputs := rfl
@[simp] theorem withFault_powerOns (c : Cause) : (s.withFault c).powerOns = s.powerOns := rfl
@[simp] theorem withFault_params (c : Cause) : (s.withFault c).params = s.params := rfl

/-! ### memWrite16 -/

@[simp] theorem memWrite16_buf (a : Nat) (v : Half) : (s.memWrite16 a v).buf = Memory.store (Memory.store s.buf a (highByte v)) (a + 1) (lowByte v) := rfl
@[simp] theorem memWrite16_ptr (a : Nat) (v : Half) : (s.memWrite16 a v).ptr = s.ptr := rfl
@[simp] theorem memWrite16_len (a : Nat) (v : Half) : (s.memWrite16 a v).len = s.len := rfl
@[simp] theorem memWrite16_result (a : Nat) (v : Half) : (s.memWrite16 a v).result = s.result := rfl
@[simp] theorem memWrite16_status (a : Nat) (v : Half) : (s.memWrite16 a v).status = s.status := rfl
@[simp] theorem memWrite16_inputs (a : Nat) (v : Half) : (s.memWrite16 a v).inputs = s.inputs := rfl
@[simp] theorem memWrite16_powerOns (a : Nat) (v : Half) : (s.memWrite16 a v).powerOns = s.powerOns := rfl
@[simp] theorem memWrite16_params (a : Nat) (v : Half) : (s.memWrite16 a v).params = s.params := rfl

/-! ### setField -/

@[simp] theorem setField_buf (f : HeaderField) (v : Half) : (s.setField f v).buf = Memory.store (Memory.store s.buf f.offset (highByte v)) (f.offset + 1) (lowByte v) := rfl
@[simp] theorem setField_ptr (f : HeaderField) (v : Half) : (s.setField f v).ptr = s.ptr := rfl
@[simp] theorem setField_len (f : HeaderField) (v : Half) : (s.setField f v).len = s.len := rfl
@[simp] theorem setField_result (f : HeaderField) (v : Half) : (s.setField f v).result = s.result := rfl
@[simp] theorem setField_status (f : HeaderField) (v : Half) : (s.setField f v).status = s.status := rfl
@[simp] theorem setField_inputs (f : HeaderField) (v : Half) : (s.setField f v).inputs = s.inputs := rfl
@[simp] theorem setField_powerOns (f : HeaderField) (v : Half) : (s.setField f v).powerOns = s.powerOns := rfl
@[simp] theorem setField_params (f : HeaderField) (v : Half) : (s.setField f v).params = s.params := rfl

/-! ### takeInput -/

@[simp] theorem takeInput_buf : s.takeInput.buf = s.buf := rfl
@[simp] theorem takeInput_ptr : s.takeInput.ptr = s.ptr := rfl
@[simp] theorem takeInput_len : s.takeInput.len = s.len := rfl
@[simp] theorem takeInput_result : s.takeInput.result = s.result := rfl
@[simp] theorem takeInput_status : s.takeInput.status = s.status := rfl
@[simp] theorem takeInput_inputs : s.takeInput.inputs = s.inputs.tail := rfl
@[simp] theorem takeInput_powerOns : s.takeInput.powerOns = s.powerOns := rfl
@[simp] theorem takeInput_params : s.takeInput.params = s.params := rfl

/-! ### presentWord -/

@[simp] theorem presentWord_buf (w : Word) : (s.presentWord w).buf = s.buf := rfl
@[simp] theorem presentWord_ptr (w : Word) : (s.presentWord w).ptr = s.ptr := rfl
@[simp] theorem presentWord_len (w : Word) : (s.presentWord w).len = s.len := rfl
@[simp] theorem presentWord_result (w : Word) : (s.presentWord w).result = s.result := rfl
@[simp] theorem presentWord_status (w : Word) : (s.presentWord w).status = s.status := rfl
@[simp] theorem presentWord_inputs (w : Word) : (s.presentWord w).inputs = .command w :: s.inputs := rfl
@[simp] theorem presentWord_powerOns (w : Word) : (s.presentWord w).powerOns = s.powerOns := rfl
@[simp] theorem presentWord_params (w : Word) : (s.presentWord w).params = s.params := rfl

/-! ### replaceInput -/

@[simp] theorem replaceInput_buf (w : Word) : (s.replaceInput w).buf = s.buf := rfl
@[simp] theorem replaceInput_ptr (w : Word) : (s.replaceInput w).ptr = s.ptr := rfl
@[simp] theorem replaceInput_len (w : Word) : (s.replaceInput w).len = s.len := rfl
@[simp] theorem replaceInput_result (w : Word) : (s.replaceInput w).result = s.result := rfl
@[simp] theorem replaceInput_status (w : Word) : (s.replaceInput w).status = s.status := rfl
@[simp] theorem replaceInput_inputs (w : Word) : (s.replaceInput w).inputs = .command w :: s.inputs.tail := rfl
@[simp] theorem replaceInput_powerOns (w : Word) : (s.replaceInput w).powerOns = s.powerOns := rfl
@[simp] theorem replaceInput_params (w : Word) : (s.replaceInput w).params = s.params := rfl

/-! ### powerOn -/

@[simp] theorem powerOn_buf : s.powerOn.buf = [] := rfl
@[simp] theorem powerOn_ptr : s.powerOn.ptr = 0 := rfl
@[simp] theorem powerOn_len : s.powerOn.len = 0 := rfl
@[simp] theorem powerOn_result : s.powerOn.result = 0#16 := rfl
@[simp] theorem powerOn_status : s.powerOn.status = 0#16 := rfl
@[simp] theorem powerOn_inputs : s.powerOn.inputs = s.inputs := rfl
@[simp] theorem powerOn_powerOns : s.powerOn.powerOns = s.powerOns + 1 := rfl
@[simp] theorem powerOn_params : s.powerOn.params = s.params := rfl

/-! ### Reset -/

@[simp] theorem reset_buf : State.reset.buf = [] := rfl
@[simp] theorem reset_ptr : State.reset.ptr = 0 := rfl
@[simp] theorem reset_len : State.reset.len = 0 := rfl
@[simp] theorem reset_result : State.reset.result = 0#16 := rfl
@[simp] theorem reset_status : State.reset.status = 0#16 := rfl
@[simp] theorem reset_inputs : State.reset.inputs = [] := rfl
@[simp] theorem reset_powerOns : State.reset.powerOns = 0 := rfl
@[simp] theorem reset_params : State.reset.params = Config.defaultParams := rfl

/-! ### The source's constants (00_scope.md R8) -/

theorem defaultParams_fromSource : Config.defaultParams.FromSource := rfl

theorem defaultParams_consistent : Config.defaultParams.Consistent := by decide

variable {p : Config.Params}

theorem bufSize_of_fromSource (h : p.FromSource) : p.bufSize = 256 := by rw [h]
theorem hdrLenV1_of_fromSource (h : p.FromSource) : p.hdrLenV1 = 10 := by rw [h]
theorem hdrLenV2_of_fromSource (h : p.FromSource) : p.hdrLenV2 = 12 := by rw [h]
theorem crcMinVersion_of_fromSource (h : p.FromSource) : p.crcMinVersion = 2 := by rw [h]
theorem crcPoly_of_fromSource (h : p.FromSource) : p.crcPoly = 0xA001#16 := by rw [h]
theorem crcSeed_of_fromSource (h : p.FromSource) : p.crcSeed = 0xFFFF#16 := by rw [h]
theorem crcSentinel_of_fromSource (h : p.FromSource) : p.crcSentinel = 0xA152#16 := by rw [h]

/-- The source's constants fit together, whatever the OPEN parameters are. -/
theorem consistent_of_fromSource (h : p.FromSource) : p.Consistent := by
  simp [Config.Params.Consistent, bufSize_of_fromSource h, hdrLenV1_of_fromSource h, hdrLenV2_of_fromSource h]

/-! ### Header field offsets (10_state.md R36) -/

@[simp] theorem offset_deviceId : HeaderField.offset .deviceId = 0 := by decide
@[simp] theorem offset_networkId : HeaderField.offset .networkId = 2 := by decide
@[simp] theorem offset_version : HeaderField.offset .version = 4 := by decide
@[simp] theorem offset_alerts : HeaderField.offset .alerts = 6 := by decide
@[simp] theorem offset_type : HeaderField.offset .type = 8 := by decide
@[simp] theorem offset_crc : HeaderField.offset .crc = 10 := by decide

end Sys2Proof.Machine
end

