-- ==== Sys2Proof/Laws/Memory.lean ====
section
/-!
SUPPORT. BUF as data: a read after a write, what a write leaves alone, and the canonical form every operation keeps.
-/

namespace Sys2Proof.Machine

/-! ### The list -/

/-- What an address holds after a write. -/
@[simp] theorem stored_store (m : Memory) (a x : Nat) (b : Byte) :
    Memory.stored (Memory.store m a b) x = if x = a then some b else Memory.stored m x := by
  induction m with
  | nil => simp [Memory.store, Memory.stored, eq_comm]
  | cons kc rest ih =>
    obtain ⟨k, c⟩ := kc
    by_cases hx : x = a
    · subst hx
      by_cases h1 : x < k
      · simp [Memory.store, Memory.stored, h1]
      · by_cases h2 : x = k
        · simp [Memory.store, Memory.stored, h2]
        · have h3 : k ≠ x := fun h => h2 h.symm
          simp [Memory.store, Memory.stored, h1, h2, h3, ih]
    · have hax : a ≠ x := fun h => hx h.symm
      by_cases h1 : a < k
      · simp [Memory.store, Memory.stored, h1, hx, hax]
      · by_cases h2 : a = k
        · subst h2
          simp [Memory.store, Memory.stored, hx, hax]
        · simp [Memory.store, Memory.stored, h1, h2, hx, ih]

/-- A lower bound may be lowered. -/
theorem risingFrom_mono {lo lo' : Nat} {m : Memory} (hle : lo' ≤ lo) (h : Memory.risingFrom lo m = true) :
    Memory.risingFrom lo' m = true := by
  cases m with
  | nil => rfl
  | cons kc rest =>
    simp only [Memory.risingFrom, Bool.and_eq_true, decide_eq_true_eq] at h ⊢
    exact ⟨le_trans hle h.1, h.2⟩

/-- A write keeps the addresses strictly rising. -/
theorem risingFrom_store {m : Memory} {lo a : Nat} {b : Byte} (hm : Memory.risingFrom lo m = true) (hlo : lo ≤ a) :
    Memory.risingFrom lo (Memory.store m a b) = true := by
  induction m generalizing lo with
  | nil => simp [Memory.store, Memory.risingFrom, hlo]
  | cons kc rest ih =>
    obtain ⟨k, c⟩ := kc
    simp only [Memory.risingFrom, Bool.and_eq_true, decide_eq_true_eq] at hm
    obtain ⟨hk, hrest⟩ := hm
    by_cases h1 : a < k
    · have h3 : a + 1 ≤ k := h1
      simp [Memory.store, Memory.risingFrom, h1, h3, hlo, hrest]
    · by_cases h2 : a = k
      · subst h2
        simp [Memory.store, Memory.risingFrom, hlo, hrest]
      · have h3 : k + 1 ≤ a := by omega
        simp [Memory.store, Memory.risingFrom, h1, h2, hk, ih hrest h3]

/-- A write keeps the canonical form. -/
theorem wf_store {m : Memory} {a : Nat} {b : Byte} (hm : Memory.wf m = true) : Memory.wf (Memory.store m a b) = true :=
  risingFrom_store hm (Nat.zero_le _)

/-- A write inside BUF lists no address outside it. -/
theorem inside_store {size : Nat} {m : Memory} {a : Nat} {b : Byte} (hm : Memory.inside size m = true) (ha : a < size) :
    Memory.inside size (Memory.store m a b) = true := by
  induction m with
  | nil => simp [Memory.store, Memory.inside, ha]
  | cons kc rest ih =>
    obtain ⟨k, c⟩ := kc
    simp only [Memory.inside, List.all_cons, Bool.and_eq_true, decide_eq_true_eq] at hm ih
    by_cases h1 : a < k
    · simp [Memory.store, Memory.inside, h1, ha, hm.1, hm.2]
    · by_cases h2 : a = k
      · simp [Memory.store, Memory.inside, h2, hm.1, hm.2]
      · simp [Memory.store, Memory.inside, h1, h2, hm.1, ih hm.2]

/-- Empty memory is in canonical form. -/
@[simp] theorem wf_nil : Memory.wf [] = true := rfl
@[simp] theorem inside_nil (size : Nat) : Memory.inside size [] = true := rfl

/-! ### One byte -/

/-- A byte reads as what BUF holds there and as the last power-on left it, nothing else. -/
theorem byteAt_congr {s t : State} (hb : t.buf = s.buf) (hp : t.powerOns = s.powerOns) (a : Nat) :
    t.byteAt a = s.byteAt a := by
  simp [State.byteAt, State.unwritten, hb, hp]

@[simp] theorem byteAt_setByte (s : State) (a x : Nat) (b : Byte) :
    (s.setByte a b).byteAt x = if x = a then b else s.byteAt x := by
  by_cases h : x = a <;> simp [State.byteAt, State.unwritten, h]

@[simp] theorem byteAt_setPtr (s : State) (p a : Nat) : (s.setPtr p).byteAt a = s.byteAt a := rfl
@[simp] theorem byteAt_setLen (s : State) (n a : Nat) : (s.setLen n).byteAt a = s.byteAt a := rfl
@[simp] theorem byteAt_respond (s : State) (v : Half) (a : Nat) : (s.respond v).byteAt a = s.byteAt a := rfl
@[simp] theorem byteAt_withFault (s : State) (c : Cause) (a : Nat) : (s.withFault c).byteAt a = s.byteAt a := rfl
@[simp] theorem byteAt_takeInput (s : State) (a : Nat) : s.takeInput.byteAt a = s.byteAt a := rfl
@[simp] theorem byteAt_presentWord (s : State) (w : Word) (a : Nat) :
    (s.presentWord w).byteAt a = s.byteAt a := rfl
@[simp] theorem byteAt_powerOn (s : State) (a : Nat) :
    s.powerOn.byteAt a = Config.porBuf (s.powerOns + 1) a := rfl

/-! ### Two bytes, big-endian (20_memory.md R61) -/

/-- What a byte reads as after a 16-bit write. -/
@[simp] theorem byteAt_memWrite16 (s : State) (a x : Nat) (v : Half) :
    (s.memWrite16 a v).byteAt x = if x = a + 1 then lowByte v else if x = a then highByte v else s.byteAt x := by
  simp [State.memWrite16]

@[simp] theorem byteAt_setField (s : State) (f : HeaderField) (x : Nat) (v : Half) :
    (s.setField f v).byteAt x =
      if x = f.offset + 1 then lowByte v else if x = f.offset then highByte v else s.byteAt x :=
  byteAt_memWrite16 s f.offset x v

/-- The two bytes of a 16-bit value make it up. -/
@[simp] theorem joinBytes_halves (v : Half) : joinBytes (highByte v) (lowByte v) = v :=
  indexAndByte_halves v

@[simp] theorem highByte_joinBytes (h l : Byte) : highByte (joinBytes h l) = h :=
  immHigh_indexAndByte h l

@[simp] theorem lowByte_joinBytes (h l : Byte) : lowByte (joinBytes h l) = l :=
  immLow_indexAndByte h l

theorem joinBytes_toNat (h l : Byte) : (joinBytes h l).toNat = 256 * h.toNat + l.toNat :=
  indexAndByte_toNat h l

/-- A 16-bit read as a number, big-endian. -/
theorem memRead16_toNat (s : State) (a : Nat) :
    (s.memRead16 a).toNat = 256 * (s.byteAt a).toNat + (s.byteAt (a + 1)).toNat :=
  joinBytes_toNat _ _

/-- A 16-bit read after a 16-bit write to the same place gives the value written. -/
@[simp] theorem memRead16_memWrite16 (s : State) (a : Nat) (v : Half) : (s.memWrite16 a v).memRead16 a = v := by
  simp [State.memRead16]

/-- A 16-bit read depends on its two bytes only. -/
theorem memRead16_congr {s t : State} {a : Nat} (h0 : t.byteAt a = s.byteAt a)
    (h1 : t.byteAt (a + 1) = s.byteAt (a + 1)) : t.memRead16 a = s.memRead16 a := by
  simp [State.memRead16, h0, h1]

/-- A 16-bit write leaves a 16-bit read elsewhere alone. -/
theorem memRead16_memWrite16_disjoint (s : State) {a x : Nat} (v : Half) (h : x + 2 ≤ a ∨ a + 2 ≤ x) :
    (s.memWrite16 a v).memRead16 x = s.memRead16 x := by
  apply memRead16_congr
  · rw [byteAt_memWrite16, if_neg (by omega), if_neg (by omega)]
  · rw [byteAt_memWrite16, if_neg (by omega), if_neg (by omega)]

/-- A 16-bit write keeps the canonical form. -/
theorem wf_memWrite16 {s : State} {a : Nat} {v : Half} (hm : Memory.wf s.buf = true) :
    Memory.wf (s.memWrite16 a v).buf = true :=
  wf_store (wf_store hm)

/-- A 16-bit write inside BUF lists no address outside it. -/
theorem inside_memWrite16 {s : State} {size a : Nat} {v : Half} (hm : Memory.inside size s.buf = true)
    (ha : a + 2 ≤ size) : Memory.inside size (s.memWrite16 a v).buf = true :=
  inside_store (inside_store hm (by omega)) ha

/-- Writing a header field keeps the canonical form. -/
theorem wf_setField {s : State} {f : HeaderField} {v : Half} (hm : Memory.wf s.buf = true) :
    Memory.wf (s.setField f v).buf = true :=
  wf_memWrite16 hm

/-- A header field lies in the first 12 bytes (10_state.md R36). -/
theorem offset_le (f : HeaderField) : f.offset ≤ 10 := by
  cases f <;> decide

/-- Writing a header field of a buffer of at least 12 bytes lists no address outside it. -/
theorem inside_setField {s : State} {size : Nat} {f : HeaderField} {v : Half} (hm : Memory.inside size s.buf = true)
    (hs : 12 ≤ size) : Memory.inside size (s.setField f v).buf = true :=
  inside_memWrite16 hm (by have := offset_le f; omega)

end Sys2Proof.Machine
end

