-- ==== Sys2Proof/Laws/Ops.lean ====
section
/-!
SUPPORT. What each shared operation can do, said once: refusing after a fault, the range check, the bounds check, the
STATUS bits, and the one step that takes a command word.
-/

namespace Sys2Proof.Machine

/-! ### STATUS -/

@[simp] theorem faultStatus_illegalCommand : faultStatus .illegalCommand = 0x0011#16 := by decide
@[simp] theorem faultStatus_cursorOverrun : faultStatus .cursorOverrun = 0x0021#16 := by decide
@[simp] theorem faultStatus_lengthRange : faultStatus .lengthRange = 0x0031#16 := by decide
@[simp] theorem faultStatus_viewRange : faultStatus .viewRange = 0x0041#16 := by decide

/-- Whether FAULT is set is read from STATUS alone. -/
theorem faulted_congr {s t : State} (h : t.status = s.status) : t.faulted = s.faulted := by
  simp [State.faulted, h]

@[simp] theorem faulted_setByte (s : State) (a : Nat) (b : Byte) : (s.setByte a b).faulted = s.faulted := rfl
@[simp] theorem faulted_memWrite16 (s : State) (a : Nat) (v : Half) : (s.memWrite16 a v).faulted = s.faulted := rfl
@[simp] theorem faulted_setField (s : State) (f : HeaderField) (v : Half) : (s.setField f v).faulted = s.faulted := rfl
@[simp] theorem faulted_setPtr (s : State) (p : Nat) : (s.setPtr p).faulted = s.faulted := rfl
@[simp] theorem faulted_setLen (s : State) (n : Nat) : (s.setLen n).faulted = s.faulted := rfl
@[simp] theorem faulted_respond (s : State) (v : Half) : (s.respond v).faulted = s.faulted := rfl
@[simp] theorem faulted_takeInput (s : State) : s.takeInput.faulted = s.faulted := rfl
@[simp] theorem faulted_presentWord (s : State) (w : Word) : (s.presentWord w).faulted = s.faulted := rfl
@[simp] theorem faulted_powerOn (s : State) : s.powerOn.faulted = false := by
  simp [State.faulted]
@[simp] theorem faulted_withFault (s : State) (c : Cause) : (s.withFault c).faulted = true := by
  cases c <;> simp [State.faulted]

/-- A fault leaves STATUS at one of its legal values. -/
theorem withFault_statusLegal (s : State) (c : Cause) : (s.withFault c).StatusLegal := by
  cases c <;> simp [State.StatusLegal]

/-! ### Refusal, range check, bounds check -/

@[simp] theorem unlessFaulted_of_inService {s : State} (h : s.InService)
    (go : State → Host.Outcome State Fault Refusal) : s.unlessFaulted go = go s := by
  simp [State.unlessFaulted, h]

@[simp] theorem unlessFaulted_of_faulted {s : State} (h : s.faulted = true)
    (go : State → Host.Outcome State Fault Refusal) : s.unlessFaulted go = .next s := by
  simp [State.unlessFaulted, h]

/-- A command either is refused with no effect or is performed. -/
theorem unlessFaulted_cases {s : State} {go : State → Host.Outcome State Fault Refusal}
    {o : Host.Outcome State Fault Refusal} (h : s.unlessFaulted go = o) :
    (s.faulted = true ∧ o = .next s) ∨ (s.faulted = false ∧ go s = o) := by
  cases hf : s.faulted
  · exact .inr ⟨rfl, by simpa [State.unlessFaulted, hf] using h⟩
  · exact .inl ⟨rfl, by simpa [State.unlessFaulted, hf] using h.symm⟩

@[simp] theorem faultIf_eq (s : State) (bad : Bool) (c : Cause) (go : State → State) :
    s.faultIf bad c go = .next (if bad then s.withFault c else go s) := rfl

@[simp] theorem raise_eq (s : State) (c : Cause) : s.raise c = .next (s.withFault c) := rfl

/-- An access inside BUF goes on. -/
theorem within_of_le {s : State} {a n : Nat} (h : a + n ≤ s.params.bufSize) (go : State → Host.Outcome State Fault Refusal) :
    s.within a n go = go s := by
  simp [State.within, h]

/-- A bounds check that answers a next state found the access inside BUF. -/
theorem within_next {s t : State} {a n : Nat} {go : State → Host.Outcome State Fault Refusal}
    (h : s.within a n go = .next t) : a + n ≤ s.params.bufSize ∧ go s = .next t := by
  by_cases hb : a + n ≤ s.params.bufSize
  · exact ⟨hb, by simpa [State.within, hb] using h⟩
  · simp [State.within, hb] at h

/-! ### Header length and cursor (00_scope.md R14) -/

/-- The Version field depends on bytes 4 and 5 only. -/
theorem version_congr {s t : State} (h4 : t.byteAt 4 = s.byteAt 4) (h5 : t.byteAt 5 = s.byteAt 5) :
    t.version = s.version :=
  memRead16_congr h4 h5

theorem hasCrc_congr {s t : State} (hp : t.params = s.params) (h : t.version = s.version) : t.hasCrc = s.hasCrc := by
  simp only [State.hasCrc, hp, h]

theorem headerLen_congr {s t : State} (hp : t.params = s.params) (h : t.version = s.version) :
    t.headerLen = s.headerLen := by
  simp [State.headerLen, hasCrc_congr hp h, hp]

/-- The header length is one of the two lengths, by Version. -/
theorem headerLen_eq (s : State) :
    s.headerLen = if s.version.toNat < s.params.crcMinVersion then s.params.hdrLenV1 else s.params.hdrLenV2 := by
  simp only [State.headerLen, State.hasCrc, decide_eq_true_eq, ← Nat.not_lt, ite_not]

/-- The header holds the fields at 0 to 9 and fits in BUF. -/
theorem headerLen_bounds {s : State} (h : s.params.Consistent) :
    10 ≤ s.headerLen ∧ s.params.hdrLenV1 ≤ s.headerLen ∧ s.headerLen ≤ s.params.bufSize := by
  obtain ⟨h1, h2, h3, h4, h5, h6⟩ := h
  rw [headerLen_eq]
  split <;> omega

/-- At the source's constants the header length is 10 or 12, by Version. -/
theorem headerLen_of_fromSource {s : State} (h : s.params.FromSource) :
    s.headerLen = if s.version.toNat < 2 then 10 else 12 := by
  rw [headerLen_eq, crcMinVersion_of_fromSource h, hdrLenV1_of_fromSource h, hdrLenV2_of_fromSource h]

theorem headerLen_le_effPtr (s : State) : s.headerLen ≤ s.effPtr := le_max_right _ _

theorem effPtr_eq_of_le {s : State} (h : s.headerLen ≤ s.ptr) : s.effPtr = s.ptr := max_eq_left h

/-! ### One step -/

/-- With a command word on the port and no fault recorded, a step decodes and executes it. -/
theorem step_command {s : State} {w : Word} {rest : List Input} (hi : s.inputs = .command w :: rest)
    (hs : s.InService) :
    step s = match decode w with
      | .error _ => .next (s.takeInput.withFault .illegalCommand)
      | .ok i => exec i s.takeInput := by
  simp only [step, hi, hs]
  rfl

/-- Presenting a word and taking it back changes nothing. -/
@[simp] theorem takeInput_presentWord (s : State) (w : Word) : (s.presentWord w).takeInput = s := rfl

end Sys2Proof.Machine
end

