-- ==== Sys2Proof/Laws/Crc.lean ====
section
/-!
SUPPORT. The checksum function loses nothing when bit 15 of the polynomial is 1, the constant term of its bit-reversed
form: each of its steps can then be undone, in the register and in the byte.
-/

namespace Sys2Proof.Machine

variable {poly : Half}

/-- Bit 15 after one bit-iteration is the bit that was shifted out. -/
theorem crcShift_msb (hp : poly[15] = true) (r : Half) : (crcShift poly r)[15] = r[0] := by
  cases h : r[0] <;> simp [crcShift, h, hp]

/-- Two registers that agree after one bit-iteration agreed before it. -/
theorem crcShift_injective (hp : poly[15] = true) : Function.Injective (crcShift poly) := by
  intro r q h
  have h0 : r[0] = q[0] := by rw [← crcShift_msb hp, ← crcShift_msb hp, h]
  have h1 : r >>> 1 = q >>> 1 := by
    cases hr : r[0] <;> rw [hr] at h0 <;> simpa [crcShift, hr, ← h0] using h
  ext i hi
  rcases Nat.eq_zero_or_pos i with rfl | hpos
  · exact h0
  · have := congrArg (fun x : Half => x.getLsbD (i - 1)) h1
    simpa [show 1 + (i - 1) = i by omega, BitVec.getLsbD_eq_getElem hi] using this

/-- The same of any number of bit-iterations. -/
theorem crcShifts_injective (hp : poly[15] = true) (n : Nat) : Function.Injective (crcShifts poly n) := by
  induction n with
  | zero => exact fun _ _ h => h
  | succ n ih => exact fun _ _ h => crcShift_injective hp (ih h)

/-- Different registers stay different under the same byte. -/
theorem crcByte_injective (hp : poly[15] = true) (b : Byte) : Function.Injective fun r => crcByte poly r b := by
  intro r q h
  have := crcShifts_injective hp 8 h
  simpa using this

/-- Different bytes give different registers. -/
theorem crcByte_byte_injective (hp : poly[15] = true) (r : Half) : Function.Injective (crcByte poly r) := by
  intro b d h
  have h1 := crcShifts_injective hp 8 h
  have h2 : ofByte b = ofByte d := by simpa using h1
  ext i hi
  have := congrArg (fun x : Half => x.getLsbD i) h2
  simpa [ofByte, hi, show i < 16 by omega, BitVec.getLsbD_eq_getElem hi] using this

end Sys2Proof.Machine
end

