-- ==== Sys2Proof/Laws/Exec.lean ====
section
/-!
SUPPORT. What each command does in service, one equation per command: later proofs cite these and unfold no meaning.
-/

namespace Sys2Proof.Machine

variable {s : State}

theorem exec_reset (h : s.InService) :
    exec .reset s = .next ((((s.setPtr 0).setLen 0).setField .version s.params.protocolVersion).respond 0#16) := by
  simp [exec, execReset, unlessFaulted_of_inService h]

theorem exec_setDeviceId (h : s.InService) (v : Half) :
    exec (.setDeviceId v) s = .next ((s.setField .deviceId v).respond 0#16) := by
  simp [exec, execSetDeviceId, State.commandSet, unlessFaulted_of_inService h]

theorem exec_getDeviceId (h : s.InService) : exec .getDeviceId s = .next (s.respond (s.getField .deviceId)) := by
  simp [exec, execGetDeviceId, State.commandGet, unlessFaulted_of_inService h]

theorem exec_setNetworkId (h : s.InService) (v : Half) :
    exec (.setNetworkId v) s = .next ((s.setField .networkId v).respond 0#16) := by
  simp [exec, execSetNetworkId, State.commandSet, unlessFaulted_of_inService h]

theorem exec_getNetworkId (h : s.InService) : exec .getNetworkId s = .next (s.respond (s.getField .networkId)) := by
  simp [exec, execGetNetworkId, State.commandGet, unlessFaulted_of_inService h]

theorem exec_setVersion (h : s.InService) (v : Half) :
    exec (.setVersion v) s = .next ((s.setField .version v).respond 0#16) := by
  simp [exec, execSetVersion, State.commandSet, unlessFaulted_of_inService h]

theorem exec_getVersion (h : s.InService) : exec .getVersion s = .next (s.respond (s.getField .version)) := by
  simp [exec, execGetVersion, State.commandGet, unlessFaulted_of_inService h]

theorem exec_setAlerts (h : s.InService) (v : Half) :
    exec (.setAlerts v) s = .next ((s.setField .alerts v).respond 0#16) := by
  simp [exec, execSetAlerts, State.commandSet, unlessFaulted_of_inService h]

theorem exec_getAlerts (h : s.InService) : exec .getAlerts s = .next (s.respond (s.getField .alerts)) := by
  simp [exec, execGetAlerts, State.commandGet, unlessFaulted_of_inService h]

theorem exec_setType (h : s.InService) (v : Half) :
    exec (.setType v) s = .next ((s.setField .type v).respond 0#16) := by
  simp [exec, execSetType, State.commandSet, unlessFaulted_of_inService h]

theorem exec_getType (h : s.InService) : exec .getType s = .next (s.respond (s.getField .type)) := by
  simp [exec, execGetType, State.commandGet, unlessFaulted_of_inService h]

theorem exec_setCrc (h : s.InService) (v : Half) :
    exec (.setCrc v) s = .next ((s.setField .crc v).respond 0#16) := by
  simp [exec, execSetCrc, State.commandSet, unlessFaulted_of_inService h]

theorem exec_getCrc (h : s.InService) : exec .getCrc s = .next (s.respond (s.getField .crc)) := by
  simp [exec, execGetCrc, State.commandGet, unlessFaulted_of_inService h]

theorem exec_headerLen (h : s.InService) : exec .headerLen s = .next (s.respond (ofCount s.headerLen)) := by
  simp [exec, execHeaderLen, unlessFaulted_of_inService h]

theorem exec_writeU16 (h : s.InService) (v : Half) (hp : s.effPtr + 2 ≤ s.params.bufSize) :
    exec (.writeU16 v) s = .next ((((s.memWrite16 s.effPtr v).setPtr (s.effPtr + 2)).setLen
      (lenUpd s.params.lenOnWrite s.len (s.effPtr + 2))).respond 0#16) := by
  simp [exec, execWriteU16, unlessFaulted_of_inService h, Nat.not_lt.mpr hp]

theorem exec_readU16 (h : s.InService) (hp : s.effPtr + 2 ≤ s.params.bufSize) :
    exec .readU16 s = .next ((s.setPtr (s.effPtr + 2)).respond (s.memRead16 s.effPtr)) := by
  simp [exec, execReadU16, unlessFaulted_of_inService h, Nat.not_lt.mpr hp]

theorem exec_skip (h : s.InService) {n : Nat} (hp : s.effPtr + n ≤ s.params.bufSize) :
    exec (.skip n) s = .next ((s.setPtr (s.effPtr + n)).respond 0#16) := by
  simp [exec, execSkip, unlessFaulted_of_inService h, Nat.not_lt.mpr hp]

theorem exec_remaining (h : s.InService) :
    exec .remaining s = .next (s.respond (ofInteger ((s.len : Int) - (s.ptr : Int)))) := by
  simp [exec, execRemaining, unlessFaulted_of_inService h]

theorem exec_setLength (h : s.InService) {n : Nat} (hn : n ≤ s.params.bufSize) :
    exec (.setLength n) s = .next (((s.setLen n).setPtr (min s.ptr n)).respond 0#16) := by
  simp [exec, execSetLength, unlessFaulted_of_inService h, Nat.not_lt.mpr hn]

theorem exec_getLength (h : s.InService) : exec .getLength s = .next (s.respond (ofCount s.len)) := by
  simp [exec, execGetLength, unlessFaulted_of_inService h]

theorem exec_rewind (h : s.InService) : exec .rewind s = .next ((s.setPtr s.headerLen).respond 0#16) := by
  simp [exec, execRewind, unlessFaulted_of_inService h]

theorem exec_bufWrite (h : s.InService) {i : Nat} (b : Byte) (hi : i < s.params.bufSize) :
    exec (.bufWrite i b) s = .next ((s.setByte i b).respond 0#16) := by
  simp [exec, execBufWrite, unlessFaulted_of_inService h, within_of_le (s := s) (a := i) (n := 1) hi]

theorem exec_bufRead (h : s.InService) {i : Nat} (hl : i < s.len) (hi : i < s.params.bufSize) :
    exec (.bufRead i) s = .next (s.respond (ofByte (s.byteAt i))) := by
  simp [exec, execBufRead, unlessFaulted_of_inService h, Nat.not_le.mpr hl, within_of_le (s := s) (a := i) (n := 1) hi]

theorem exec_updateCrc (h : s.InService) (hl : s.len ≤ s.params.bufSize) :
    exec .updateCrc s =
      .next (if s.hasCrc then (s.setField .crc s.checksum).respond s.checksum else s.respond 0#16) := by
  simp only [exec, execUpdateCrc]
  rw [unlessFaulted_of_inService h, within_of_le (by omega)]

theorem exec_crcIsValid (h : s.InService) (hl : s.len ≤ s.params.bufSize) :
    exec .crcIsValid s =
      .next (s.respond (if s.hasCrc && decide (s.checksum ≠ s.getField .crc) then 0#16 else 1#16)) := by
  simp only [exec, execCrcIsValid]
  rw [unlessFaulted_of_inService h, within_of_le (by omega)]

end Sys2Proof.Machine
end

