-- ==== Sys2Proof/Laws/PerInstr.lean ====
section
/-!
SUPPORT. Statements made per instruction. `WordIsLegal`: the word of a command has RSV 0 and its opcode stands in the
opcode map (30_encoding.md R81, R84).
-/

namespace Sys2Proof.Laws

/-- The word of `i` has RSV 0 and a mapped opcode. -/
def WordIsLegal.Statement (i : Instr) : Prop :=
  rsvField (encode i) = 0#8 ∧ (opcodeMap.lookup (opcField (encode i))).isSome = true

theorem WordIsLegal.reset : WordIsLegal.Statement (.reset) := by
  simp [WordIsLegal.Statement, encode, opcodeMap]

theorem WordIsLegal.setDeviceId (v : Half) : WordIsLegal.Statement (.setDeviceId v) := by
  simp [WordIsLegal.Statement, encode, opcodeMap]

theorem WordIsLegal.getDeviceId : WordIsLegal.Statement (.getDeviceId) := by
  simp [WordIsLegal.Statement, encode, opcodeMap]

theorem WordIsLegal.setNetworkId (v : Half) : WordIsLegal.Statement (.setNetworkId v) := by
  simp [WordIsLegal.Statement, encode, opcodeMap]

theorem WordIsLegal.getNetworkId : WordIsLegal.Statement (.getNetworkId) := by
  simp [WordIsLegal.Statement, encode, opcodeMap]

theorem WordIsLegal.setVersion (v : Half) : WordIsLegal.Statement (.setVersion v) := by
  simp [WordIsLegal.Statement, encode, opcodeMap]

theorem WordIsLegal.getVersion : WordIsLegal.Statement (.getVersion) := by
  simp [WordIsLegal.Statement, encode, opcodeMap]

theorem WordIsLegal.setAlerts (v : Half) : WordIsLegal.Statement (.setAlerts v) := by
  simp [WordIsLegal.Statement, encode, opcodeMap]

theorem WordIsLegal.getAlerts : WordIsLegal.Statement (.getAlerts) := by
  simp [WordIsLegal.Statement, encode, opcodeMap]

theorem WordIsLegal.setType (v : Half) : WordIsLegal.Statement (.setType v) := by
  simp [WordIsLegal.Statement, encode, opcodeMap]

theorem WordIsLegal.getType : WordIsLegal.Statement (.getType) := by
  simp [WordIsLegal.Statement, encode, opcodeMap]

theorem WordIsLegal.setCrc (v : Half) : WordIsLegal.Statement (.setCrc v) := by
  simp [WordIsLegal.Statement, encode, opcodeMap]

theorem WordIsLegal.getCrc : WordIsLegal.Statement (.getCrc) := by
  simp [WordIsLegal.Statement, encode, opcodeMap]

theorem WordIsLegal.headerLen : WordIsLegal.Statement (.headerLen) := by
  simp [WordIsLegal.Statement, encode, opcodeMap]

theorem WordIsLegal.writeU16 (v : Half) : WordIsLegal.Statement (.writeU16 v) := by
  simp [WordIsLegal.Statement, encode, opcodeMap]

theorem WordIsLegal.readU16 : WordIsLegal.Statement (.readU16) := by
  simp [WordIsLegal.Statement, encode, opcodeMap]

theorem WordIsLegal.skip (n : Nat) : WordIsLegal.Statement (.skip n) := by
  simp [WordIsLegal.Statement, encode, opcodeMap]

theorem WordIsLegal.remaining : WordIsLegal.Statement (.remaining) := by
  simp [WordIsLegal.Statement, encode, opcodeMap]

theorem WordIsLegal.setLength (n : Nat) : WordIsLegal.Statement (.setLength n) := by
  simp [WordIsLegal.Statement, encode, opcodeMap]

theorem WordIsLegal.getLength : WordIsLegal.Statement (.getLength) := by
  simp [WordIsLegal.Statement, encode, opcodeMap]

theorem WordIsLegal.rewind : WordIsLegal.Statement (.rewind) := by
  simp [WordIsLegal.Statement, encode, opcodeMap]

theorem WordIsLegal.updateCrc : WordIsLegal.Statement (.updateCrc) := by
  simp [WordIsLegal.Statement, encode, opcodeMap]

theorem WordIsLegal.crcIsValid : WordIsLegal.Statement (.crcIsValid) := by
  simp [WordIsLegal.Statement, encode, opcodeMap]

theorem WordIsLegal.bufWrite (i : Nat) (b : Byte) : WordIsLegal.Statement (.bufWrite i b) := by
  simp [WordIsLegal.Statement, encode, opcodeMap]

theorem WordIsLegal.bufRead (i : Nat) : WordIsLegal.Statement (.bufRead i) := by
  simp [WordIsLegal.Statement, encode, opcodeMap]

end Sys2Proof.Laws
end

