-- ==== Sys2Proof/Tests/Slice0.lean ====
section
/-!
SUPPORT. Tests: words of the spec, one step on a small state per command, ill-formed commands, and for each statement that
has hypotheses a state and operands that meet them. Expected values are from 95_test_vectors.md, from the examples of the
rules named, or computed by hand from the rules.
-/

open Sys2Proof Sys2Proof.Machine Sys2Proof.Spec

namespace Sys2Proof.Tests

/-! ### States and ways to look at an outcome -/

/-- A buffer whose first bytes have been written. -/
def written (bytes : List Byte) : Memory := bytes.zipIdx.map fun p => (p.2, p.1)

/-- The 20 bytes at the end of program P1 (95_test_vectors.md). -/
def frame : List Byte :=
  [0x12, 0x34, 0x00, 0x00, 0x00, 0x02, 0x00, 0x00, 0x00, 0x01, 0x48, 0x92, 0x00, 0x01, 0x0E, 0x74, 0x00, 0x02, 0x08, 0x66]

/-- The end of program P1: a version 2 packet of two readings. -/
def p1 : State := { State.reset with buf := written frame, ptr := 20, len := 20 }

/-- After `RESET` with a zero buffer, as far as the header goes. -/
def fresh : State := { State.reset with buf := written [0, 0, 0, 0, 0, 2, 0, 0, 0, 0, 0, 0] }

/-- The same at Version 1. -/
def freshV1 : State := { State.reset with buf := written [0, 0, 0, 0, 0, 1, 0, 0, 0, 0, 0, 0] }

/-- ZPC after a fault. -/
def stopped : State := { fresh with status := 0x0021#16 }

/-- Something of the next state. -/
def look {α : Type} (o : Host.Outcome State Fault Refusal) (f : State → α) : Option α :=
  match o with
  | .next t => some (f t)
  | .fault _ => none
  | .refused _ => none

/-- A state with one word on the command port. -/
def given (s : State) (w : Word) : State := { s with inputs := [.command w] }

/-! ### Well-formedness: each check refuses an ill-formed command -/

theorem test_wf_refuses_skip_count : (Instr.skip 65536).wf = false := by decide
theorem test_wf_refuses_length : (Instr.setLength 65536).wf = false := by decide
theorem test_wf_refuses_write_index : (Instr.bufWrite 256 0#8).wf = false := by decide
theorem test_wf_refuses_read_index : (Instr.bufRead 256).wf = false := by decide
theorem test_wf_accepts_bounds :
    (Instr.skip 65535).wf = true ∧ (Instr.setLength 65535).wf = true ∧ (Instr.bufWrite 255 0#8).wf = true ∧
      (Instr.bufRead 255).wf = true := by decide

/-! ### Decoding: each command's word, written from 30_encoding.md R84 and the rules' examples -/

theorem test_decode_control : decode 0x01000000#32 = .ok .reset := by decide

theorem test_decode_header_sets :
    decode 0x10001234#32 = .ok (.setDeviceId 0x1234#16) ∧ decode 0x12000000#32 = .ok (.setNetworkId 0#16) ∧
    decode 0x14000001#32 = .ok (.setVersion 1#16) ∧ decode 0x16000003#32 = .ok (.setAlerts 3#16) ∧
    decode 0x18000001#32 = .ok (.setType 1#16) ∧ decode 0x1A004892#32 = .ok (.setCrc 0x4892#16) := by decide

theorem test_decode_header_gets :
    decode 0x11000000#32 = .ok .getDeviceId ∧ decode 0x13000000#32 = .ok .getNetworkId ∧
    decode 0x15000000#32 = .ok .getVersion ∧ decode 0x17000000#32 = .ok .getAlerts ∧
    decode 0x19000000#32 = .ok .getType ∧ decode 0x1B000000#32 = .ok .getCrc ∧
    decode 0x20000000#32 = .ok .headerLen := by decide

theorem test_decode_cursor :
    decode 0x21000E74#32 = .ok (.writeU16 0x0E74#16) ∧ decode 0x22000000#32 = .ok .readU16 ∧
    decode 0x23000002#32 = .ok (.skip 2) ∧ decode 0x24000000#32 = .ok .remaining ∧
    decode 0x25000101#32 = .ok (.setLength 257) ∧ decode 0x26000000#32 = .ok .getLength ∧
    decode 0x27000000#32 = .ok .rewind := by decide

theorem test_decode_checksum :
    decode 0x30000000#32 = .ok .updateCrc ∧ decode 0x31000000#32 = .ok .crcIsValid := by decide

theorem test_decode_raw :
    decode 0x40000D34#32 = .ok (.bufWrite 13 0x34#8) ∧ decode 0x4000FF7F#32 = .ok (.bufWrite 255 0x7F#8) ∧
    decode 0x4100000A#32 = .ok (.bufRead 10) := by decide

/-- 95_test_vectors.md section 3.5. -/
theorem test_decode_illegal :
    decode 0x00000000#32 = .error .unmappedOpcode ∧ decode 0x02000000#32 = .error .unmappedOpcode ∧
    decode 0xFF000000#32 = .error .unmappedOpcode ∧ decode 0x01010000#32 = .error .reservedNotZero ∧
    decode 0x23FF0000#32 = .error .reservedNotZero ∧ decode 0x11000001#32 = .error .operandNotZero ∧
    decode 0x27000001#32 = .error .operandNotZero ∧ decode 0x41000100#32 = .error .indexHighNotZero := by decide

/-- 30_encoding.md R87. -/
theorem test_encode_examples :
    encode (.setDeviceId 0x1234#16) = 0x10001234#32 ∧ encode (.bufWrite 13 0x34#8) = 0x40000D34#32 ∧
    (Instr.bufWrite 13 0x34#8).assembly = "BUF_WRITE 13, 52" := by decide

theorem test_decode_table_word :
    decodeTableWord 32 0x40000D34 = some (.bufWrite 13 0x34#8) ∧ decodeTableWord 32 0x41000100 = none := by decide

/-! ### One step of each command -/

/-- 95_test_vectors.md H7. -/
theorem test_reset :
    look (exec .reset p1) (fun t => (t.ptr, t.len, t.result, [t.byteAt 0, t.byteAt 4, t.byteAt 5, t.byteAt 11])) =
      some (0, 0, 0#16, [0x12#8, 0x00#8, 0x02#8, 0x92#8]) := by decide

/-- 40_header.md R102, R104, R108, R110, R112: examples. -/
theorem test_set_fields :
    look (exec (.setDeviceId 0x1234#16) fresh) (fun t => (t.byteAt 0, t.byteAt 1)) = some (0x12#8, 0x34#8) ∧
    look (exec (.setNetworkId 0xABCD#16) fresh) (fun t => (t.byteAt 2, t.byteAt 3)) = some (0xAB#8, 0xCD#8) ∧
    look (exec (.setAlerts 0xFF03#16) fresh) (fun t => (t.byteAt 6, t.byteAt 7)) = some (0xFF#8, 0x03#8) ∧
    look (exec (.setType 0x0102#16) fresh) (fun t => (t.byteAt 8, t.byteAt 9)) = some (0x01#8, 0x02#8) ∧
    look (exec (.setCrc 0x4892#16) freshV1) (fun t => (t.byteAt 10, t.byteAt 11)) = some (0x48#8, 0x92#8) := by decide

/-- 40_header.md R106: Version 1 makes the header 10 bytes, 0xFFFF makes it 12. -/
theorem test_set_version :
    look (exec (.setVersion 1#16) fresh) (fun t => (t.headerLen, t.ptr, t.len)) = some (10, 0, 0) ∧
    look (exec (.setVersion 0xFFFF#16) freshV1) (·.headerLen) = some 12 := by decide

/-- The fields of P1. -/
theorem test_get_fields :
    look (exec .getDeviceId p1) (·.result) = some 0x1234#16 ∧ look (exec .getNetworkId p1) (·.result) = some 0#16 ∧
    look (exec .getVersion p1) (·.result) = some 2#16 ∧ look (exec .getAlerts p1) (·.result) = some 0#16 ∧
    look (exec .getType p1) (·.result) = some 1#16 ∧ look (exec .getCrc p1) (·.result) = some 0x4892#16 := by decide

/-- 40_header.md R114. -/
theorem test_header_len :
    look (exec .headerLen fresh) (·.result) = some 12#16 ∧ look (exec .headerLen freshV1) (·.result) = some 10#16 := by
  decide

/-- 95_test_vectors.md K1 and P4 steps 3, 5. -/
theorem test_write_u16 :
    look (exec (.writeU16 0x0E74#16) fresh) (fun t => (t.byteAt 12, t.byteAt 13, t.ptr, t.len)) =
      some (0x0E#8, 0x74#8, 14, 14) ∧
    look (exec (.writeU16 0xABCD#16) { fresh with ptr := 254 }) (fun t => (t.byteAt 255, t.ptr, t.len, t.status)) =
      some (0xCD#8, 256, 256, 0#16) ∧
    look (exec (.writeU16 0xBEEF#16) { fresh with ptr := 255 }) (fun t => (t.ptr, t.status)) = some (255, 0x0021#16) := by
  decide

/-- 95_test_vectors.md K7: both readings of `LEN_ON_WRITE`. -/
theorem test_write_u16_inside_length :
    look (exec (.writeU16 0xAAAA#16) { fresh with len := 20 }) (fun t => (t.ptr, t.len)) = some (14, 20) ∧
    look (exec (.writeU16 0xAAAA#16)
      { fresh with len := 20, params := { lenOnWrite := .assign } })
      (fun t => (t.ptr, t.len)) = some (14, 14) := by decide

/-- 95_test_vectors.md P2 step 30 and K5. -/
theorem test_read_u16 :
    look (exec .readU16 { p1 with ptr := 18 }) (fun t => (t.result, t.ptr)) = some (0x0866#16, 20) ∧
    look (exec .readU16 { fresh with ptr := 256 }) (fun t => (t.ptr, t.status)) = some (256, 0x0021#16) := by decide

/-- 95_test_vectors.md K4, K6 and 41_cursor.md R140. -/
theorem test_skip :
    look (exec (.skip 244) fresh) (fun t => (t.ptr, t.status)) = some (256, 0#16) ∧
    look (exec (.skip 245) fresh) (fun t => (t.ptr, t.status)) = some (0, 0x0021#16) ∧
    look (exec (.skip 3) freshV1) (·.ptr) = some 13 := by decide

/-- 41_cursor.md R145. -/
theorem test_remaining :
    look (exec .remaining { fresh with len := 14, ptr := 16 }) (·.result) = some 0xFFFE#16 ∧
    look (exec .remaining { fresh with len := 20, ptr := 12 }) (·.result) = some 8#16 := by decide

/-- 41_cursor.md R150 and 95_test_vectors.md K11. -/
theorem test_set_length :
    look (exec (.setLength 16) p1) (fun t => (t.len, t.ptr)) = some (16, 16) ∧
    look (exec (.setLength 257) fresh) (fun t => (t.len, t.status)) = some (0, 0x0031#16) := by decide

/-- 95_test_vectors.md P1 step 11. -/
theorem test_get_length : look (exec .getLength p1) (·.result) = some 0x0014#16 := by decide

/-- 41_cursor.md R155 and 95_test_vectors.md K15. -/
theorem test_rewind :
    look (exec .rewind p1) (·.ptr) = some 12 ∧ look (exec .rewind freshV1) (·.ptr) = some 10 := by decide

/-- 41_cursor.md R160: a write to byte 5 changes the header length at once. -/
theorem test_buf_write :
    look (exec (.bufWrite 5 0x01#8) p1) (fun t => (t.byteAt 5, t.headerLen, t.ptr, t.len)) = some (0x01#8, 10, 20, 20) ∧
    look (exec (.bufWrite 255 0x7F#8) fresh) (fun t => (t.byteAt 255, t.len)) = some (0x7F#8, 0) := by decide

/-- 41_cursor.md R162 and 95_test_vectors.md K13. -/
theorem test_buf_read :
    look (exec (.bufRead 10) p1) (·.result) = some 0x0048#16 ∧
    look (exec (.bufRead 0) fresh) (·.status) = some 0x0041#16 ∧
    look (exec (.bufRead 20) p1) (·.status) = some 0x0041#16 := by decide

/-- 95_test_vectors.md P1 step 10; C3 (LEN 11); C1 (LEN 0); C8 (Version 1). -/
theorem test_update_crc :
    look (exec .updateCrc { p1 with buf := Memory.store p1.buf 10 0#8 })
      (fun t => (t.result, t.byteAt 10, t.byteAt 11)) = some (0x4892#16, 0x48#8, 0x92#8) ∧
    look (exec .updateCrc { fresh with len := 11 }) (·.result) = some 0xBEC6#16 ∧
    look (exec .updateCrc fresh) (·.result) = some 0xFFFF#16 ∧
    look (exec .updateCrc freshV1) (fun t => (t.result, t.byteAt 10)) = some (0#16, 0#8) := by decide +kernel

/-- 95_test_vectors.md P1 step 13, P2 step 33, H5. -/
theorem test_crc_is_valid :
    look (exec .crcIsValid p1) (fun t => (t.result, t.byteAt 10)) = some (1#16, 0x48#8) ∧
    look (exec .crcIsValid { p1 with buf := Memory.store p1.buf 13 0x75#8 }) (fun t => (t.result, t.status)) =
      some (0#16, 0#16) ∧
    look (exec .crcIsValid freshV1) (·.result) = some 1#16 := by decide +kernel

/-! ### The step around a command -/

/-- 60_exceptions.md R217, 70_reset_and_hazards.md R240: refused after a fault, `RESET` too; a power-on reset clears it. -/
theorem test_refused_after_fault :
    look (step (given stopped 0x01000000#32)) (fun t => (t.status, t.inputs)) = some (0x0021#16, []) ∧
    look (step (given stopped 0x00000000#32)) (·.status) = some 0x0021#16 ∧
    look (step { stopped with inputs := [.powerOn] }) (fun t => (t.status, t.buf, t.powerOns)) = some (0#16, [], 1) := by
  decide

/-- 30_encoding.md R85: an illegal word sets STATUS to 0x0011 and nothing else. -/
theorem test_illegal_word :
    look (step (given p1 0x41000100#32)) id = some { p1 with status := 0x0011#16 } := by decide

/-- From reset, the word placed for the next step is the one that runs. -/
theorem test_first_command :
    look (step (State.reset.withFetchWord 32 0x10001234)) (fun t => (t.byteAt 0, t.byteAt 1, t.inputs)) =
      some (0x12#8, 0x34#8, []) ∧
    look (step State.reset) (·.inputs) = some [] := by decide

/-- The ports (30_encoding.md R80): reserved bits of STATUS read 0. -/
theorem test_ports :
    ({ p1 with status := 0xFFFF#16, result := 7#16 } : State).statusPort = 0x00F1#16 ∧
    ({ p1 with result := 7#16 } : State).responsePort = 7#16 ∧ stopped.cause = 2#4 := by decide

/-- 95_test_vectors.md S2, and the regions of 20_memory.md R68. -/
theorem test_packet_views :
    p1.pairs = [(1#16, 0x0E74#16), (2#16, 0x0866#16)] ∧ p1.image = frame ∧
    p1.region 9 = some .header ∧ p1.region 10 = some .crcField ∧ p1.region 12 = some .payload ∧
    p1.region 20 = some .outside ∧ p1.region 256 = none := by decide

/-- Rows 2 and 4 of 20_memory.md R68 at Version 1, with LEN 0 and with LEN 12. -/
theorem test_region_version_one :
    freshV1.region 9 = some .header ∧ freshV1.region 10 = some .outside ∧
    ({ freshV1 with len := 12 } : State).region 11 = some .payload := by decide

/-! ### Witnesses: hypotheses of the statements, met -/

theorem witness_StepRunsDecodedCommand :
    (given p1 0x26000000#32).inputs = .command 0x26000000#32 :: [] ∧ (given p1 0x26000000#32).InService ∧
    decode 0x26000000#32 = .ok .getLength := by decide

theorem witness_IdlePortChangesNothing : p1.inputs = [] := by decide

theorem witness_DecodeInvertsEncode : (Instr.bufWrite 255 0x34#8).wf = true ∧ (Instr.skip 65535).wf = true := by decide

theorem witness_DecodedWordIsItsEncoding : decode 0x4000FF34#32 = .ok (.bufWrite 255 0x34#8) := by decide

theorem illegal_opcode_zero : Illegal 0x00000000#32 := .inl (by decide)
theorem illegal_reserved : Illegal 0x01010000#32 := .inr (.inl (by decide))
theorem illegal_operand : Illegal 0x11000001#32 := .inr (.inr (.inl (by decide)))
theorem illegal_index : Illegal 0x41000100#32 := .inr (.inr (.inr (by decide)))
theorem legal_index : ¬ Illegal 0x410000FF#32 := by
  unfold Illegal
  decide

/-- Each clause of the statement is met: the four ways to be illegal above, and a legal word. -/
theorem witness_IllegalWordsFault :
    (given p1 0x41000100#32).inputs = .command 0x41000100#32 :: [] ∧ (given p1 0x41000100#32).InService ∧
    Illegal 0x41000100#32 ∧ ¬ Illegal 0x410000FF#32 :=
  ⟨rfl, rfl, illegal_index, legal_index⟩

theorem witness_FaultedMachineRefusesEveryWord :
    stopped.faulted = true ∧ (given stopped 0x01000000#32).faulted = true ∧
    ({ stopped with inputs := [.powerOn] } : State).inputs = .powerOn :: [] := by decide

theorem witness_FaultsArePrecise :
    ∃ t, (given fresh 0x230000F5#32).InService ∧ step (given fresh 0x230000F5#32) = .next t ∧ t.faulted = true :=
  ⟨_, rfl, rfl, rfl⟩

/-- One word for each cause. -/
theorem witness_FaultCausesAreAsListed :
    look (step (given fresh 0x00000000#32)) (·.status) = some 0x0011#16 ∧
    look (step (given fresh 0x230000F5#32)) (·.status) = some 0x0021#16 ∧
    look (step (given fresh 0x25000101#32)) (·.status) = some 0x0031#16 ∧
    look (step (given fresh 0x41000000#32)) (·.status) = some 0x0041#16 := by decide

theorem witness_RangeChecksFault :
    ({ fresh with ptr := 255 } : State).InService ∧ ({ fresh with ptr := 255 } : State).params.bufSize < ({ fresh with ptr := 255 } : State).effPtr + 2 ∧
    fresh.params.bufSize < fresh.effPtr + 245 ∧ fresh.params.bufSize < 257 ∧ fresh.len ≤ 0 := by decide

theorem witness_PowerOnResetValues : ({ p1 with inputs := [.powerOn] } : State).inputs = .powerOn :: [] := by decide

theorem inv_p1 : p1.Inv :=
  ⟨by decide, by decide, by decide, by decide, by decide, by decide⟩

theorem inv_fresh : fresh.Inv :=
  ⟨by decide, by decide, by decide, by decide, by decide, by decide⟩

theorem witness_StepKeepsInvariant : ∃ t, (given p1 0x210000FF#32).Inv ∧
    step (given p1 0x210000FF#32) = .next t ∧ t.ptr = 22 :=
  ⟨_, ⟨by decide, by decide, by decide, by decide, by decide, by decide⟩, rfl, rfl⟩

theorem witness_CursorAndLengthStayInBuffer :
    Reachable State.reset ∧
    (∃ t, exec (.writeU16 7#16) fresh = .next t ∧ t.InService) ∧ (∃ t, exec (.setLength 256) p1 = .next t ∧ t.InService) :=
  ⟨⟨0, [], Config.defaultParams, defaultParams_consistent, rfl⟩, ⟨_, rfl, rfl⟩, ⟨_, rfl, rfl⟩⟩

theorem witness_EveryStepHasANextState : p1.Inv := inv_p1

theorem witness_CommandsWriteOnlyTheirBytes : ∃ t, exec (.writeU16 7#16) p1 = .next t ∧ 22 ∉ bytesWritten (.writeU16 7#16) p1 :=
  ⟨_, rfl, by decide⟩

/-- Two states that differ in byte 15, which `GET_DEVICE_ID` does not read. -/
theorem witness_CommandsReadOnlyTheirBytes :
    ∃ t t', (∀ a ∈ bytesRead .getDeviceId p1, (p1.setByte 15 0x75#8).byteAt a = p1.byteAt a) ∧
      exec .getDeviceId p1 = .next t ∧ exec .getDeviceId (p1.setByte 15 0x75#8) = .next t' :=
  ⟨_, _, by decide, rfl, rfl⟩

theorem witness_QueriesHaveNoSideEffect :
    (∃ t, isQuery (.bufRead 19) = true ∧ exec (.bufRead 19) p1 = .next t) ∧
    (∃ t, fresh.InService ∧ exec .readU16 { fresh with ptr := 4 } = .next t ∧ t.InService) ∧
    (∃ t, 0 < 244 ∧ exec (.skip 244) fresh = .next t ∧ t.InService) :=
  ⟨⟨_, rfl, rfl⟩, ⟨_, rfl, rfl, rfl⟩, ⟨_, by decide, rfl, rfl⟩⟩

theorem witness_MixedWidthViewsAgree :
    (∃ t, p1.params.Consistent ∧ exec (.writeU16 0x1234#16) { p1 with ptr := 254 } = .next t ∧ t.InService) ∧
    (offsetOf .crc + 1 < p1.len ∧ ∃ t, exec (setCommand .crc 7#16) p1 = .next t) ∧
    (∃ t u, exec (.bufWrite p1.effPtr 1#8) p1 = .next t ∧ exec (.bufWrite (p1.effPtr + 1) 2#8) t = .next u) :=
  ⟨⟨_, by decide, rfl, rfl⟩, ⟨by decide, _, rfl⟩, ⟨_, _, rfl, rfl⟩⟩

theorem witness_FieldCommandsAreDirect : p1.InService := by decide

theorem witness_ResetCommandEffect : p1.InService := by decide

theorem witness_HeaderLengthFollowsVersion : p1.InService ∧ p1.params.FromSource := by decide

theorem witness_HeaderLenAnswersTenOrTwelve :
    fresh.InService ∧ fresh.params.FromSource ∧ versionNumber fresh = 2 ∧ freshV1.InService ∧ versionNumber freshV1 < 2 := by decide

theorem witness_HeaderRoundTrip :
    fresh.InService ∧
    [Instr.setType 5#16, .setVersion 3#16, .setDeviceId 1#16, .setAlerts 4#16, .setNetworkId 2#16].Perm
      [.setDeviceId 1#16, .setNetworkId 2#16, .setVersion 3#16, .setAlerts 4#16, .setType 5#16] ∧
    fresh.params.Consistent ∧ canChangeHeader .updateCrc = false := by decide

theorem witness_PayloadCommandsSpareTheHeader :
    (∃ t, exec (.writeU16 7#16) p1 = .next t ∧ 11 < p1.headerLen) ∧
    (∃ t t', p1.headerLen = (p1.setField .deviceId 9#16).headerLen ∧
      exec .readU16 { p1 with ptr := 12 } = .next t ∧
      exec .readU16 { p1.setField .deviceId 9#16 with ptr := 12 } = .next t' ∧ t.InService) ∧
    canWriteHeaderRegion .crcIsValid = false :=
  ⟨⟨_, rfl, by decide⟩, ⟨_, _, by decide, rfl, rfl, rfl⟩, rfl⟩

theorem witness_WriteU16StoresAtTheCursor :
    ({ p1 with ptr := 254 } : State).InService ∧ ({ p1 with ptr := 254 } : State).effPtr + 2 ≤ p1.params.bufSize := by decide

theorem witness_ReadU16ReadsAtTheCursor :
    ({ p1 with ptr := 254 } : State).InService ∧ ({ p1 with ptr := 254 } : State).effPtr + 2 ≤ p1.params.bufSize := by decide

theorem witness_SkipMovesTheCursor : fresh.InService ∧ fresh.effPtr + 244 ≤ fresh.params.bufSize := by decide

theorem witness_RemainingIsTheSignedDifference :
    p1.params.bufSize < 2 ^ 15 ∧ ({ p1 with ptr := 256, len := 0 } : State).InService ∧ 256 ≤ p1.params.bufSize := by decide

theorem witness_SetLengthClampsTheCursor : p1.InService ∧ 256 ≤ p1.params.bufSize := by decide

theorem witness_GetLengthAnswersLen : ({ p1 with len := 256 } : State).InService ∧ ({ p1 with len := 256 } : State).len < 2 ^ 16 := by decide

theorem witness_RewindGoesToTheHeaderEnd : p1.InService := by decide

theorem witness_BufWriteStoresOneByte : p1.InService ∧ 255 < p1.params.bufSize := by decide

theorem witness_BufReadAnswersOneByte : p1.InService ∧ 19 < p1.len ∧ 19 < p1.params.bufSize := by decide

theorem witness_PacketImageIsReadOut :
    p1.InService ∧ p1.len ≤ 256 ∧ p1.len ≤ p1.params.bufSize ∧ p1.len ≤ 20 := by decide

theorem witness_PayloadLengthFromWrites :
    ∃ s, p1.params.Consistent ∧ p1.InService ∧ exec .reset p1 = .next s ∧
      (∀ i ∈ [Instr.setAlerts 1#16, .writeU16 7#16], isWrite i = true ∨ isFieldCommand i = true) ∧
      0 < [Instr.setAlerts 1#16, .writeU16 7#16].countP isWrite ∧
      s.headerLen + 2 * [Instr.setAlerts 1#16, .writeU16 7#16].countP isWrite ≤ s.params.bufSize :=
  ⟨_, by decide, rfl, rfl, by decide, by decide, by decide⟩

theorem witness_HeaderOnlyPacketIsEmpty :
    ∃ s, p1.InService ∧ exec .reset p1 = .next s ∧
      (∀ i ∈ [Instr.setAlerts 1#16, .getType], isFieldCommand i = true ∨ ∃ v, i = .setVersion v) :=
  ⟨_, rfl, rfl, fun i h => by
    rcases List.mem_pair.1 h with rfl | rfl <;> exact .inl rfl⟩

theorem witness_UpdateCrcStoresTheChecksum :
    p1.InService ∧ p1.len ≤ p1.params.bufSize ∧ CarriesCrc p1 ∧ freshV1.InService ∧ ¬ CarriesCrc freshV1 := by decide

theorem witness_CrcIsValidComparesTheChecksum : p1.InService ∧ p1.len ≤ p1.params.bufSize := by decide

theorem witness_UpdateThenCheckIsValid :
    ∃ t, p1.InService ∧ p1.len ≤ p1.params.bufSize ∧ CarriesCrc p1 ∧ exec .updateCrc p1 = .next t ∧ t.InService :=
  ⟨_, rfl, by decide, by decide, exec_updateCrc rfl (by decide), by decide +kernel⟩

/-- Both clauses are met: a payload byte, and byte 5 made 1. -/
theorem witness_SingleByteChangeIsDetected :
    ∃ t u u', p1.params.crcPoly[15] = true ∧ p1.InService ∧ p1.len ≤ p1.params.bufSize ∧ CarriesCrc p1 ∧ exec .updateCrc p1 = .next t ∧
      (13 < t.len ∧ 0x75#8 ≠ t.byteAt 13 ∧ exec (.bufWrite 13 0x75#8) t = .next u ∧ CarriesCrc u) ∧
      (5 < t.len ∧ 0x01#8 ≠ t.byteAt 5 ∧ exec (.bufWrite 5 0x01#8) t = .next u' ∧ ¬ CarriesCrc u') :=
  ⟨_, _, _, by decide, rfl, by decide, by decide, exec_updateCrc rfl (by decide),
    ⟨by decide +kernel, by decide +kernel, exec_bufWrite (by decide +kernel) _ (by decide), by decide +kernel⟩,
    ⟨by decide +kernel, by decide +kernel, exec_bufWrite (by decide +kernel) _ (by decide), by decide +kernel⟩⟩

theorem witness_VersionOneFramesAlwaysValid :
    freshV1.InService ∧ freshV1.len ≤ freshV1.params.bufSize ∧ ¬ CarriesCrc freshV1 := by decide

theorem witness_ScansAnswerTheWholePairs : p1.Inv ∧ p1.InService := ⟨inv_p1, rfl⟩

theorem witness_ScansNeverFault :
    p1.Inv ∧ p1.InService ∧ p1.params.FromSource ∧ fresh.Inv ∧ fresh.InService ∧ fresh.len < headerBytes fresh + 4 :=
  ⟨inv_p1, rfl, rfl, inv_fresh, rfl, by decide⟩

/-- Two readings, a field command between them, `SET_CRC` among the acts of a Version that carries a CRC. -/
def acts : List Act := [.inr (1#16, 10#16), .inl (.setAlerts 3#16), .inl (.setCrc 7#16), .inr (1#16, 20#16)]

theorem witness_ReadingsRoundTrip :
    ∃ s, p1.params.Consistent ∧ p1.InService ∧ exec .reset p1 = .next s ∧
      (∀ i, .inl i ∈ acts → isFieldCommand i = true ∧ (CarriesCrc s ∨ ∀ v, i ≠ .setCrc v)) ∧
      s.headerLen + 4 * (actReadings acts).length ≤ s.params.bufSize := by
  refine ⟨_, by decide, rfl, rfl, fun i h => ?_, by decide⟩
  simp only [acts, List.mem_cons, reduceCtorEq, Sum.inl.injEq, List.not_mem_nil, or_false, false_or] at h
  rcases h with rfl | rfl <;> exact ⟨rfl, .inl (by decide)⟩

theorem witness_SendHandsOverTheCheckedPacket : p1.Inv ∧ p1.InService ∧ p1.len ≤ 256 := ⟨inv_p1, rfl, by decide⟩

theorem witness_ReceiveLoadsTheFrame :
    fresh.InService ∧ frame.length ≤ 256 ∧ frame.length ≤ fresh.params.bufSize := by decide

theorem witness_Crc16ReferenceValues : Config.defaultParams.FromSource := by decide

theorem witness_ParametersAreTheSources : ∃ t, step (given p1 0x210000FF#32) = .next t ∧ t.params = p1.params :=
  ⟨_, rfl, rfl⟩

/-- Another BUF_SIZE, another polynomial and another `CRC_MIN_VERSION` are read where the rules name them (R8). -/
theorem test_other_parameters :
    look (exec (.setLength 257) { fresh with params := { bufSize := 300 } }) (fun t => (t.len, t.status)) =
      some (257, 0#16) ∧
    crc16 { crcPoly := 0x8408#16 } [0x01#8] = 0x1E0E#16 ∧
    look (exec .headerLen { fresh with params := { crcMinVersion := 3 } }) (·.result) = some 10#16 := by decide

end Sys2Proof.Tests
end

section
/-!
SUPPORT. What a step can answer, said once: a postcondition of an outcome with one rule per shared operation of
Machine/Ops.lean, and the five things a step can do.
-/

namespace Sys2Proof.Machine

/-! ### A postcondition of an outcome -/

/-- Whenever the outcome is a next state, `P` holds of it. Nothing is asked of an outcome at which the model stops. -/
def Ensures (o : Host.Outcome State Fault Refusal) (P : State → Prop) : Prop := ∀ t, o = .next t → P t

variable {P : State → Prop}

@[simp] theorem ensures_next (t : State) : Ensures (.next t) P ↔ P t := by
  simp [Ensures]

@[simp] theorem ensures_fault (r : Fault) : Ensures (.fault r) P := by
  simp [Ensures]

/-- A refused command leaves the state as it is; otherwise the command decides. -/
@[simp] theorem ensures_unlessFaulted (s : State) (go : State → Host.Outcome State Fault Refusal) :
    Ensures (s.unlessFaulted go) P ↔ (s.faulted = true → P s) ∧ (s.faulted = false → Ensures (go s) P) := by
  cases hf : s.faulted
  · simp [unlessFaulted_of_inService hf]
  · simp [unlessFaulted_of_faulted hf]

/-- Past a bounds check the access lies inside BUF. -/
@[simp] theorem ensures_within (s : State) (a n : Nat) (go : State → Host.Outcome State Fault Refusal) :
    Ensures (s.within a n go) P ↔ (a + n ≤ s.params.bufSize → Ensures (go s) P) := by
  by_cases hb : a + n ≤ s.params.bufSize
  · simp [within_of_le hb, hb]
  · simp [State.within, hb]

/-- A range check either records the cause or lets the command go on. -/
theorem ensures_faultIf (s : State) (bad : Bool) (c : Cause) (go : State → State) :
    Ensures (s.faultIf bad c go) P ↔ (bad = true → P (s.withFault c)) ∧ (bad = false → P (go s)) := by
  cases bad <;> simp

/-! ### One step -/

/-- What a step from `s` to `t` can be (30_encoding.md R80, 60_exceptions.md R217, R218). -/
inductive StepCase (s t : State) : Prop
  /-- Nothing is on the command port. -/
  | idle (hi : s.inputs = []) (ht : t = s)
  /-- Power-on reset. -/
  | powerOn (rest : List Input) (hi : s.inputs = .powerOn :: rest) (ht : t = s.takeInput.powerOn)
  /-- After a fault a word is taken undecoded. -/
  | refused (w : Word) (rest : List Input) (hi : s.inputs = .command w :: rest) (hf : s.faulted = true)
      (ht : t = s.takeInput)
  /-- A word that is no command. -/
  | illegal (w : Word) (rest : List Input) (e : DecodeError) (hi : s.inputs = .command w :: rest) (hs : s.InService)
      (hd : decode w = .error e) (ht : t = s.takeInput.withFault .illegalCommand)
  /-- A command. -/
  | executed (w : Word) (rest : List Input) (i : Instr) (hi : s.inputs = .command w :: rest) (hs : s.InService)
      (hd : decode w = .ok i) (he : exec i s.takeInput = .next t)

theorem step_idle {s : State} (hi : s.inputs = []) : step s = .next s := by
  simp [step, hi]

theorem step_powerOn {s : State} {rest : List Input} (hi : s.inputs = .powerOn :: rest) :
    step s = .next s.takeInput.powerOn := by
  simp [step, hi]

theorem step_refused {s : State} {w : Word} {rest : List Input} (hi : s.inputs = .command w :: rest)
    (hf : s.faulted = true) : step s = .next s.takeInput := by
  simp [step, hi, hf]

theorem step_illegal {s : State} {w : Word} {rest : List Input} {e : DecodeError}
    (hi : s.inputs = .command w :: rest) (hs : s.InService) (hd : decode w = .error e) :
    step s = .next (s.takeInput.withFault .illegalCommand) := by
  rw [step_command hi hs, hd]

theorem step_executed {s : State} {w : Word} {rest : List Input} {i : Instr}
    (hi : s.inputs = .command w :: rest) (hs : s.InService) (hd : decode w = .ok i) :
    step s = exec i s.takeInput := by
  rw [step_command hi hs, hd]

/-- The five cases are all that a step with a next state can be. -/
theorem step_cases {s t : State} (h : step s = .next t) : StepCase s t := by
  match hi : s.inputs with
  | [] =>
    rw [step_idle hi] at h
    exact .idle hi (by simpa using h.symm)
  | .powerOn :: rest =>
    rw [step_powerOn hi] at h
    exact .powerOn rest hi (by simpa using h.symm)
  | .command w :: rest =>
    cases hf : s.faulted with
    | true =>
      rw [step_refused hi hf] at h
      exact .refused w rest hi hf (by simpa using h.symm)
    | false =>
      cases hd : decode w with
      | error e =>
        rw [step_illegal hi hf hd] at h
        exact .illegal w rest e hi hf hd (by simpa using h.symm)
      | ok i =>
        rw [step_executed hi hf hd] at h
        exact .executed w rest i hi hf hd h

end Sys2Proof.Machine
end

section
/-!
The parameters (00_scope.md R8): no command and no step changes them.
-/

namespace Sys2Proof.Machine

theorem commandSet_params (s : State) (f : HeaderField) (v : Half) :
    Ensures (s.commandSet f v) (·.params = s.params) := by
  simp [State.commandSet]

theorem commandGet_params (s : State) (f : HeaderField) : Ensures (s.commandGet f) (·.params = s.params) := by
  simp [State.commandGet]

/-- No command changes a parameter, whether it completes, faults or is refused. -/
theorem exec_params (i : Instr) (s : State) : Ensures (exec i s) (·.params = s.params) := by
  cases i with
  | setDeviceId v | setNetworkId v | setVersion v | setAlerts v | setType v | setCrc v =>
    exact commandSet_params s _ v
  | getDeviceId | getNetworkId | getVersion | getAlerts | getType | getCrc => exact commandGet_params s _
  | reset => simp [exec, execReset]
  | headerLen => simp [exec, execHeaderLen]
  | writeU16 v => simp [exec, execWriteU16, ensures_faultIf, -faultIf_eq]
  | readU16 => simp [exec, execReadU16, ensures_faultIf, -faultIf_eq]
  | skip n => simp [exec, execSkip, ensures_faultIf, -faultIf_eq]
  | remaining => simp [exec, execRemaining]
  | setLength n => simp [exec, execSetLength, ensures_faultIf, -faultIf_eq]
  | getLength => simp [exec, execGetLength]
  | rewind => simp [exec, execRewind]
  | updateCrc => cases hc : s.hasCrc <;> simp [exec, execUpdateCrc, hc]
  | crcIsValid => simp [exec, execCrcIsValid]
  | bufWrite a b => simp [exec, execBufWrite]
  | bufRead a => by_cases hl : s.len ≤ a <;> simp [exec, execBufRead, hl]

/-- No step changes a parameter. -/
theorem step_params {s t : State} (h : step s = .next t) : t.params = s.params := by
  cases step_cases h with
  | idle _ ht => rw [ht]
  | powerOn _ _ ht => rw [ht, powerOn_params, takeInput_params]
  | refused _ _ _ _ ht => rw [ht, takeInput_params]
  | illegal _ _ _ _ _ _ ht => rw [ht, withFault_params, takeInput_params]
  | executed _ _ i _ _ _ he => exact exec_params i s.takeInput t he

end Sys2Proof.Machine

namespace Sys2Proof.Proofs

/-- Settles O49: the reset state holds the default parameters, and every case of a step keeps the parameters. -/
theorem parametersAreTheSources : Obligations.ParametersAreTheSources :=
  ⟨by rw [Machine.reset_params]; decide, fun _ _ => Machine.step_params⟩

end Sys2Proof.Proofs
end

section
/-!
The invariant of reachable states (10_state.md R40, R43, 20_memory.md R60): every operation of Machine/Ops.lean keeps it,
so every command and every step does, and so does every run from power-on.
-/

namespace Sys2Proof.Machine

open Sys2Proof.Spec

/-! ### Rules for a command's first lines -/

section
variable {P : State → Prop} {s : State}

/-- A command that is refused leaves `P` as it was; performed, it has to establish it. -/
theorem Ensures.unlessFaulted {go : State → Host.Outcome State Fault Refusal} (hs : P s) (hgo : Ensures (go s) P) :
    Ensures (s.unlessFaulted go) P :=
  (ensures_unlessFaulted s go).2 ⟨fun _ => hs, fun _ => hgo⟩

/-- A command with a range check establishes `P` by its fault and, past the check, by its effect. -/
theorem Ensures.faultIf {q : Prop} [Decidable q] {c : Cause} {go : State → State} (hbad : P (s.withFault c))
    (hok : ¬ q → P (go s)) : Ensures (s.faultIf (decide q) c go) P :=
  (ensures_faultIf s (decide q) c go).2 ⟨fun _ => hbad, fun hq => hok (of_decide_eq_false hq)⟩

/-- A command with one range check that leaves ZPC in service was neither refused nor out of range. -/
theorem faultIf_inService {t : State} {bad : State → Bool} {c : Cause} {go : State → State}
    (h : (s.unlessFaulted fun s => s.faultIf (bad s) c go) = .next t) (ht : t.InService) :
    s.InService ∧ bad s = false ∧ t = go s := by
  obtain ⟨hf, heq⟩ | ⟨hs, heq⟩ := unlessFaulted_cases h
  · cases heq
    simp [State.InService, hf] at ht
  · cases hb : bad s with
    | true =>
      simp only [faultIf_eq, hb, if_true, Host.Outcome.next.injEq] at heq
      simp [← heq, State.InService] at ht
    | false => exact ⟨hs, rfl, by simpa [hb] using heq.symm⟩

end

/-! ### LEN after a `WRITE_U16` (41_cursor.md R131) -/

/-- By either reading LEN reaches at least the end of the word written. -/
theorem le_lenUpd (mode : Config.LenOnWrite) (len np : Nat) : np ≤ lenUpd mode len np := by
  cases mode with
  | max => exact le_max_right len np
  | assign => exact le_rfl

/-- By either reading LEN stays under a bound of the old LEN and of the end of the word written. -/
theorem lenUpd_le {mode : Config.LenOnWrite} {len np n : Nat} (hlen : len ≤ n) (hnp : np ≤ n) :
    lenUpd mode len np ≤ n := by
  cases mode with
  | max => exact max_le hlen hnp
  | assign => exact hnp

/-! ### The invariant after each operation -/

/-- The registers at 0 and nothing written: the values of 10_state.md R46, with parameters that fit together. -/
theorem inv_of_cleared {s : State} (hbuf : s.buf = []) (hptr : s.ptr = 0) (hlen : s.len = 0) (hstatus : s.status = 0#16)
    (hparams : s.params.Consistent) : s.Inv :=
  { ptr_le := hptr ▸ Nat.zero_le _
    len_le := hlen ▸ Nat.zero_le _
    status := .inl hstatus
    canonical := hbuf ▸ wf_nil
    inside := hbuf ▸ inside_nil _
    params := hparams }

section
variable {s : State} (h : s.Inv)
include h

theorem inv_setPtr {p : Nat} (hp : p ≤ s.params.bufSize) : (s.setPtr p).Inv := { h with ptr_le := hp }

theorem inv_setLen {n : Nat} (hn : n ≤ s.params.bufSize) : (s.setLen n).Inv := { h with len_le := hn }

theorem inv_respond (v : Half) : (s.respond v).Inv := { h with }

theorem inv_takeInput : s.takeInput.Inv := { h with }

theorem inv_withFault (c : Cause) : (s.withFault c).Inv := { h with status := withFault_statusLegal s c }

theorem inv_setByte {a : Nat} (ha : a < s.params.bufSize) (b : Byte) : (s.setByte a b).Inv :=
  { h with
    canonical := wf_store h.canonical
    inside := inside_store h.inside ha }

theorem inv_memWrite16 {a : Nat} (ha : a + 2 ≤ s.params.bufSize) (v : Half) : (s.memWrite16 a v).Inv :=
  { h with
    canonical := wf_memWrite16 h.canonical
    inside := inside_memWrite16 h.inside ha }

/-- Every header field lies in BUF. -/
theorem inv_setField (f : HeaderField) (v : Half) : (s.setField f v).Inv :=
  inv_memWrite16 h (by
    have hf := offset_le f
    have hb : 256 ≤ s.params.bufSize := h.params.1
    omega) v

/-- A power-on reset clears all the invariant speaks of but the parameters. -/
theorem inv_powerOn : s.powerOn.Inv := inv_of_cleared rfl rfl rfl rfl h.params

/-! ### The invariant after each command -/

theorem commandSet_inv (f : HeaderField) (v : Half) : Ensures (s.commandSet f v) State.Inv :=
  .unlessFaulted h ((ensures_next _).2 (inv_respond (inv_setField h f v) _))

/-- A command that only answers writes nothing but RESULT. -/
theorem answer_inv (v : State → Half) : Ensures (s.unlessFaulted fun s => .next (s.respond (v s))) State.Inv :=
  .unlessFaulted h ((ensures_next _).2 (inv_respond h _))

theorem execReset_inv : Ensures (execReset s) State.Inv :=
  .unlessFaulted h ((ensures_next _).2
    (inv_respond (inv_setField (inv_setLen (inv_setPtr h (Nat.zero_le _)) (Nat.zero_le _)) .version _) _))

/-- The range check keeps the word written, and with it PTR and LEN, in BUF. -/
theorem execWriteU16_inv (v : Half) : Ensures (execWriteU16 v s) State.Inv := by
  refine .unlessFaulted h (.faultIf (inv_withFault h _) fun hq => ?_)
  have hend : s.effPtr + 2 ≤ s.params.bufSize := Nat.not_lt.1 hq
  have hptr : ((s.memWrite16 s.effPtr v).setPtr (s.effPtr + 2)).Inv := inv_setPtr (inv_memWrite16 h hend v) hend
  exact inv_respond (inv_setLen hptr (lenUpd_le h.len_le hend)) _

theorem execReadU16_inv : Ensures (execReadU16 s) State.Inv :=
  .unlessFaulted h (.faultIf (inv_withFault h _) fun hq => inv_respond (inv_setPtr h (Nat.not_lt.1 hq)) _)

theorem execSkip_inv (n : Nat) : Ensures (execSkip n s) State.Inv :=
  .unlessFaulted h (.faultIf (inv_withFault h _) fun hq => inv_respond (inv_setPtr h (Nat.not_lt.1 hq)) _)

theorem execSetLength_inv (n : Nat) : Ensures (execSetLength n s) State.Inv := by
  refine .unlessFaulted h (.faultIf (inv_withFault h _) fun hq => ?_)
  have hn : n ≤ s.params.bufSize := Nat.not_lt.1 hq
  exact inv_respond (inv_setPtr (inv_setLen h hn) ((min_le_right _ _).trans hn)) _

theorem execRewind_inv : Ensures (execRewind s) State.Inv := by
  obtain ⟨_, _, hfit⟩ := headerLen_bounds h.params
  exact .unlessFaulted h ((ensures_next _).2 (inv_respond (inv_setPtr h hfit) _))

/-- Only at a Version with a CRC field is anything stored. -/
theorem execUpdateCrc_inv : Ensures (execUpdateCrc s) State.Inv := by
  refine .unlessFaulted h ((ensures_within _ _ _ _).2 fun _ => (ensures_next _).2 ?_)
  cases s.hasCrc with
  | true => exact inv_respond (inv_setField h .crc _) _
  | false => exact inv_respond h _

theorem execCrcIsValid_inv : Ensures (execCrcIsValid s) State.Inv :=
  .unlessFaulted h ((ensures_within _ _ _ _).2 fun _ => (ensures_next _).2 (inv_respond h _))

theorem execBufWrite_inv (a : Nat) (b : Byte) : Ensures (execBufWrite a b s) State.Inv :=
  .unlessFaulted h ((ensures_within _ _ _ _).2 fun ha => (ensures_next _).2 (inv_respond (inv_setByte h ha b) _))

theorem execBufRead_inv (a : Nat) : Ensures (execBufRead a s) State.Inv := by
  refine .unlessFaulted h ?_
  by_cases hl : a ≥ s.len
  · simpa [hl] using inv_withFault h .viewRange
  · simpa [hl] using fun _ => inv_respond h _

/-- Every command keeps the invariant, whether it completes, faults or is refused. -/
theorem exec_inv (i : Instr) : Ensures (exec i s) State.Inv := by
  cases i with
  | setDeviceId v | setNetworkId v | setVersion v | setAlerts v | setType v | setCrc v => exact commandSet_inv h _ v
  | reset => exact execReset_inv h
  | getDeviceId | getNetworkId | getVersion | getAlerts | getType | getCrc => exact answer_inv h (·.getField _)
  | headerLen => exact answer_inv h fun s => ofCount s.headerLen
  | remaining => exact answer_inv h fun s => ofInteger ((s.len : Int) - (s.ptr : Int))
  | getLength => exact answer_inv h fun s => ofCount s.len
  | writeU16 v => exact execWriteU16_inv h v
  | readU16 => exact execReadU16_inv h
  | skip n => exact execSkip_inv h n
  | setLength n => exact execSetLength_inv h n
  | rewind => exact execRewind_inv h
  | updateCrc => exact execUpdateCrc_inv h
  | crcIsValid => exact execCrcIsValid_inv h
  | bufWrite a b => exact execBufWrite_inv h a b
  | bufRead a => exact execBufRead_inv h a

/-- Every step keeps the invariant. -/
theorem step_inv {t : State} (hst : step s = .next t) : t.Inv := by
  cases step_cases hst with
  | idle _ ht => exact ht ▸ h
  | powerOn _ _ ht => exact ht ▸ inv_powerOn (inv_takeInput h)
  | refused _ _ _ _ ht => exact ht ▸ inv_takeInput h
  | illegal _ _ _ _ _ _ ht => exact ht ▸ inv_withFault (inv_takeInput h) _
  | executed _ _ i _ _ _ he => exact exec_inv (inv_takeInput h) i t he

end

/-! ### Runs from power-on -/

/-- The state after power-on reset meets the invariant, whatever will arrive and whatever the parameters that fit
together. -/
theorem inv_reset (inputs : List Input) {params : Config.Params} (hp : params.Consistent) :
    ({ State.reset with inputs := inputs, params := params } : State).Inv :=
  inv_of_cleared rfl rfl rfl rfl hp

/-- What every step keeps, every run keeps. -/
theorem run_keeps {P : State → Prop} (hstep : ∀ s t : State, P s → step s = .next t → P t) (k : Nat) {s t : State}
    (hs : P s) (hrun : Host.Core.run Sys2Proof.core k s = .next t) : P t := by
  induction k generalizing s with
  | zero =>
    cases hrun
    exact hs
  | succ k ih =>
    cases hu : Sys2Proof.core.step s with
    | next u => exact ih (hstep s u hs hu) (by simpa only [Host.Core.run, hu] using hrun)
    | fault r => simp [Host.Core.run, hu] at hrun
    | refused r => simp [Host.Core.run, hu] at hrun

/-- Every reachable state meets the invariant. -/
theorem reachable_inv {s : State} (h : Reachable s) : s.Inv := by
  obtain ⟨k, inputs, params, hp, hrun⟩ := h
  exact run_keeps (fun _ _ hs => step_inv hs) k (inv_reset inputs hp) hrun

/-- The reset state itself is reached, by no step. -/
theorem reachable_reset : Reachable State.reset :=
  ⟨0, [], Config.defaultParams, defaultParams_consistent, rfl⟩

end Sys2Proof.Machine
end

section
/-!
PTR against LEN (10_state.md R40): at most LEN after a `WRITE_U16` or `SET_LENGTH` that succeeds, above it after a
`READ_U16` or `SKIP` of the empty packet in the reset state (R46).
-/

namespace Sys2Proof.Machine

open Sys2Proof.Spec

/-! ### What a successful command did -/

section
variable {s t : State}

theorem writeU16_inService {v : Half} (h : exec (.writeU16 v) s = .next t) (ht : t.InService) :
    t = (((s.memWrite16 s.effPtr v).setPtr (s.effPtr + 2)).setLen
      (lenUpd s.params.lenOnWrite s.len (s.effPtr + 2))).respond 0#16 := by
  change execWriteU16 v s = .next t at h
  obtain ⟨_, _, hgo⟩ := faultIf_inService h ht
  exact hgo

theorem setLength_inService {n : Nat} (h : exec (.setLength n) s = .next t) (ht : t.InService) :
    t = ((s.setLen n).setPtr (min s.ptr n)).respond 0#16 := by
  change execSetLength n s = .next t at h
  obtain ⟨_, _, hgo⟩ := faultIf_inService h ht
  exact hgo

/-- A `READ_U16` that succeeds found its word inside BUF. -/
theorem readU16_inService (h : exec .readU16 s = .next t) (ht : t.InService) :
    s.effPtr + 2 ≤ s.params.bufSize ∧ t = (s.setPtr (s.effPtr + 2)).respond (s.memRead16 s.effPtr) := by
  change execReadU16 s = .next t at h
  obtain ⟨_, hq, hgo⟩ := faultIf_inService h ht
  exact ⟨Nat.not_lt.1 (of_decide_eq_false hq), hgo⟩

/-- Directly after a successful `WRITE_U16` PTR is at most LEN: LEN is at least the end of the word written. -/
theorem ptr_le_len_of_writeU16 {v : Half} (h : exec (.writeU16 v) s = .next t) (ht : t.InService) : t.ptr ≤ t.len := by
  rw [writeU16_inService h ht]
  exact le_lenUpd s.params.lenOnWrite s.len (s.effPtr + 2)

/-- Directly after a successful `SET_LENGTH` PTR is at most LEN: it was clamped. -/
theorem ptr_le_len_of_setLength {n : Nat} (h : exec (.setLength n) s = .next t) (ht : t.InService) : t.ptr ≤ t.len := by
  rw [setLength_inService h ht]
  exact min_le_right s.ptr n

end

/-! ### The reset state (10_state.md R46) -/

/-- After power-on reset a byte reads as the first power-on left it. -/
@[simp] theorem byteAt_reset (a : Nat) : State.reset.byteAt a = Config.porBuf 0 a := rfl

@[simp] theorem faulted_reset : State.reset.faulted = false := by decide

/-- Whatever Version reads as after power-on reset, the cursor snaps to one of the source's two header lengths, and a word
fits after either. -/
theorem effPtr_reset_fits : State.reset.effPtr + 2 ≤ State.reset.params.bufSize := by
  have hsize : State.reset.params.bufSize = 256 := bufSize_of_fromSource defaultParams_fromSource
  have hsnap : State.reset.effPtr = State.reset.headerLen := max_eq_right (Nat.zero_le _)
  have hlen := headerLen_of_fromSource (s := State.reset) defaultParams_fromSource
  split at hlen <;> omega

/-- `READ_U16` of the empty packet leaves PTR above LEN (the last sentence of 10_state.md R40). -/
theorem exists_readU16_len_lt_ptr :
    ∃ s t : State, Reachable s ∧ exec .readU16 s = .next t ∧ t.InService ∧ t.len < t.ptr :=
  ⟨_, _, reachable_reset, exec_readU16 faulted_reset effPtr_reset_fits, faulted_reset, Nat.succ_pos _⟩

/-- So does a `SKIP` over one word of it. -/
theorem exists_skip_len_lt_ptr :
    ∃ (s t : State) (n : Nat), Reachable s ∧ exec (.skip n) s = .next t ∧ t.InService ∧ t.len < t.ptr :=
  ⟨_, _, 2, reachable_reset, exec_skip faulted_reset effPtr_reset_fits, faulted_reset, Nat.succ_pos _⟩

end Sys2Proof.Machine
end

section
/-!
The header length by Version (00_scope.md R14, 10_state.md R38).
-/

namespace Sys2Proof.Machine

open Sys2Proof.Spec

/-- The Version field as a number is bytes 4 and 5, big-endian. -/
theorem version_toNat (s : State) : s.version.toNat = versionNumber s :=
  memRead16_toNat s 4

/-- The model's header length is the one of 00_scope.md R14, by bytes 4 and 5. -/
theorem headerLen_eq_headerBytes (s : State) : s.headerLen = headerBytes s := by
  rw [headerLen_eq, version_toNat, headerBytes]

@[simp] theorem version_setField_version (s : State) (v : Half) : (s.setField .version v).version = v :=
  memRead16_memWrite16 s _ v

@[simp] theorem headerLen_respond (s : State) (v : Half) : (s.respond v).headerLen = s.headerLen :=
  headerLen_congr rfl rfl

/-- Once Version is written, the header length is the one of the Version written. -/
theorem headerLen_setField_version (s : State) (v : Half) :
    (s.setField .version v).headerLen =
      if v.toNat < s.params.crcMinVersion then s.params.hdrLenV1 else s.params.hdrLenV2 := by
  rw [headerLen_eq, version_setField_version, setField_params]

/-- A 16-bit write leaves every byte alone but its two. -/
theorem sameBytesOutside_memWrite16 (s : State) (a : Nat) (v : Half) : s.SameBytesOutside (s.memWrite16 a v) a 2 := by
  intro x hx
  rw [byteAt_memWrite16, if_neg (by omega), if_neg (by omega)]

theorem sameBytesOutside_setField (s : State) (f : HeaderField) (v : Half) :
    s.SameBytesOutside (s.setField f v) f.offset 2 :=
  sameBytesOutside_memWrite16 s f.offset v

end Sys2Proof.Machine
end

section
/-!
The bytes below the header length (10_state.md R41).
-/

namespace Sys2Proof.Machine

open Sys2Proof.Spec

variable {s : State}

/-- Every byte from 0 up to the header length of `s` reads as in `s`. -/
def State.SameHeaderRegion (s t : State) : Prop := ∀ x < s.headerLen, t.byteAt x = s.byteAt x

theorem commandGet_sameHeaderRegion (f : HeaderField) : Ensures (s.commandGet f) s.SameHeaderRegion := by
  simp [State.commandGet, State.SameHeaderRegion]

/-- `WRITE_U16` stores at the effective cursor, which is not below the header length; its fault stores nothing. -/
theorem execWriteU16_sameHeaderRegion (v : Half) : Ensures (execWriteU16 v s) s.SameHeaderRegion := by
  refine .unlessFaulted (fun _ _ => rfl) (.faultIf (fun _ _ => rfl) fun _ x hx => ?_)
  exact sameBytesOutside_memWrite16 s s.effPtr v x (.inl (hx.trans_le (headerLen_le_effPtr s)))

/-- Only the commands 10_state.md R41 names can write below the header length. -/
theorem exec_sameHeaderRegion {i : Instr} (hi : canWriteHeaderRegion i = false) :
    Ensures (exec i s) s.SameHeaderRegion := by
  cases i with
  | reset | setDeviceId | setNetworkId | setVersion | setAlerts | setType | setCrc | updateCrc | bufWrite =>
    exact nomatch hi
  | getDeviceId | getNetworkId | getVersion | getAlerts | getType | getCrc => exact commandGet_sameHeaderRegion _
  | writeU16 v => exact execWriteU16_sameHeaderRegion v
  | headerLen => simp [exec, execHeaderLen, State.SameHeaderRegion]
  | readU16 => simp [exec, execReadU16, ensures_faultIf, -faultIf_eq, State.SameHeaderRegion]
  | skip n => simp [exec, execSkip, ensures_faultIf, -faultIf_eq, State.SameHeaderRegion]
  | remaining => simp [exec, execRemaining, State.SameHeaderRegion]
  | setLength n => simp [exec, execSetLength, ensures_faultIf, -faultIf_eq, State.SameHeaderRegion]
  | getLength => simp [exec, execGetLength, State.SameHeaderRegion]
  | rewind => simp [exec, execRewind, State.SameHeaderRegion]
  | crcIsValid => simp [exec, execCrcIsValid, State.SameHeaderRegion]
  | bufRead a => by_cases hl : s.len ≤ a <;> simp [exec, execBufRead, hl, State.SameHeaderRegion]

/-- Two states with the same cursor, header length and buffer size have the same answer to `READ_U16` when they agree
from the header length on: the word read lies there. -/
theorem readU16_result_congr {s' t t' : State} (hs' : s'.InService) (hptr : s'.ptr = s.ptr)
    (hhl : s'.headerLen = s.headerLen) (hsize : s'.params.bufSize = s.params.bufSize)
    (hbytes : ∀ x, s.headerLen ≤ x → s'.byteAt x = s.byteAt x) (h : exec .readU16 s = .next t)
    (h' : exec .readU16 s' = .next t') (ht : t.InService) : t'.InService ∧ t'.result = t.result := by
  obtain ⟨hfit, rfl⟩ := readU16_inService h ht
  have heff : s'.effPtr = s.effPtr := congrArg₂ max hptr hhl
  have hle : s.headerLen ≤ s.effPtr := headerLen_le_effPtr s
  have hword : s'.memRead16 s.effPtr = s.memRead16 s.effPtr :=
    memRead16_congr (hbytes _ hle) (hbytes _ (hle.trans (Nat.le_succ _)))
  rw [exec_readU16 hs' (by rw [heff, hsize]; exact hfit), heff, hword] at h'
  cases h'
  exact ⟨hs', rfl⟩

end Sys2Proof.Machine
end

section
/-!
The statements of 10_state.md.
-/

namespace Sys2Proof.Proofs

open Sys2Proof.Machine

/-- Settles O13: each command and each other case of a step is made of operations that keep the invariant. -/
theorem stepKeepsInvariant : Obligations.StepKeepsInvariant :=
  fun _ _ hs hst => step_inv hs hst

/-- Settles O14: the bounds are part of the invariant of reachable states, and in the reset state PTR passes LEN by a
`READ_U16` or a `SKIP` whatever its Version reads as. -/
theorem cursorAndLengthStayInBuffer : Obligations.CursorAndLengthStayInBuffer :=
  ⟨fun _ hs => ⟨(reachable_inv hs).ptr_le, (reachable_inv hs).len_le⟩,
    fun _ _ _ => ptr_le_len_of_writeU16, fun _ _ _ => ptr_le_len_of_setLength,
    exists_readU16_len_lt_ptr, exists_skip_len_lt_ptr⟩

/-- Settles O22: Version is bytes 4 and 5 read big-endian, and `SET_VERSION` stores those two bytes only. -/
theorem headerLengthFollowsVersion : Obligations.HeaderLengthFollowsVersion := by
  refine ⟨fun s => ⟨headerLen_eq_headerBytes s, congrArg (max s.ptr) (headerLen_eq_headerBytes s)⟩, fun s hp => ?_,
    fun s v hs => ⟨_, exec_setVersion hs v, ?_, sameBytesOutside_setField s .version v, rfl, rfl⟩⟩
  · rw [headerLen_of_fromSource hp, version_toNat]
  · rw [headerLen_respond, headerLen_setField_version]

/-- Settles O25: the effective cursor is at or above the header length, and no other command outside the list stores a
byte. -/
theorem payloadCommandsSpareTheHeader : Obligations.PayloadCommandsSpareTheHeader :=
  ⟨fun _ t _ h => execWriteU16_sameHeaderRegion _ t h,
    fun _ _ _ _ _ hs' hptr hhl hsize hbytes h h' ht => readU16_result_congr hs' hptr hhl hsize hbytes h h' ht,
    fun _ _ t hi h => exec_sameHeaderRegion hi t h⟩

/-- Settles O11: the step that takes a power-on reset puts each value of 10_state.md R46 in place. -/
theorem powerOnResetValues : Obligations.PowerOnResetValues := by
  refine ⟨⟨reset_ptr, reset_len, reset_result, reset_status, byteAt_reset⟩, fun s rest hi =>
    ⟨_, step_powerOn hi, powerOn_ptr _, powerOn_len _, powerOn_result _, powerOn_status _, ?_, rfl, rfl,
      byteAt_powerOn _⟩⟩
  rw [powerOn_inputs, takeInput_inputs, hi, List.tail_cons]

/-- Settles O12: the reset state is the one with nothing to arrive and the default parameters, which fit together. -/
theorem resetMeetsInvariant : Obligations.ResetMeetsInvariant :=
  inv_reset [] defaultParams_consistent

end Sys2Proof.Proofs
end

section
/-!
What a command writes (20_memory.md R60, column "bytes written"), and what no command touches.
-/

namespace Sys2Proof.Machine

open Sys2Proof.Spec

/-- The model's version gate is the one of 00_scope.md R14, by bytes 4 and 5. -/
theorem hasCrc_iff (s : State) : s.hasCrc = true ↔ CarriesCrc s := by
  rw [State.hasCrc, version_toNat, decide_eq_true_eq]

/-- From `s` to `t` nothing outside ZPC differs and no byte but those at the addresses listed; registers may. -/
def State.ChangesOnly (s : State) (addrs : List Nat) (t : State) : Prop :=
  s.SameOutside t ∧ ∀ a, a ∉ addrs → t.byteAt a = s.byteAt a

/-! ### Each operation -/

section
variable {s t : State} {addrs : List Nat}

theorem changesOnly_refl : s.ChangesOnly addrs s :=
  ⟨⟨rfl, rfl, rfl⟩, fun _ _ => rfl⟩

/-- Writing registers as well writes no further byte. -/
theorem State.ChangesOnly.registers (h : s.ChangesOnly addrs t) {p n : Nat} {r st : Half} :
    s.ChangesOnly addrs { t with ptr := p, len := n, result := r, status := st } :=
  h

/-- A command that writes registers only writes no byte. -/
theorem changesOnly_registers {p n : Nat} {r st : Half} :
    s.ChangesOnly addrs { s with ptr := p, len := n, result := r, status := st } :=
  changesOnly_refl.registers

theorem changesOnly_setByte (a : Nat) (b : Byte) : s.ChangesOnly [a] (s.setByte a b) :=
  ⟨⟨rfl, rfl, rfl⟩, fun x hx => by rw [byteAt_setByte, if_neg (List.ne_of_not_mem_cons hx)]⟩

theorem changesOnly_memWrite16 (a : Nat) (v : Half) : s.ChangesOnly [a, a + 1] (s.memWrite16 a v) := by
  refine ⟨⟨rfl, rfl, rfl⟩, fun x hx => sameBytesOutside_memWrite16 s a v x ?_⟩
  simp only [List.mem_cons, List.not_mem_nil, or_false, not_or] at hx
  omega

theorem changesOnly_setField (f : HeaderField) (v : Half) :
    s.ChangesOnly [f.offset, f.offset + 1] (s.setField f v) :=
  changesOnly_memWrite16 f.offset v

end

/-! ### Each command -/

section
variable (s : State)

theorem commandSet_changesOnly (f : HeaderField) (v : Half) :
    Ensures (s.commandSet f v) (s.ChangesOnly [f.offset, f.offset + 1]) :=
  .unlessFaulted changesOnly_refl ((ensures_next _).2 (changesOnly_setField f v).registers)

/-- A command that is refused or writes registers only. -/
theorem registersOnly_changesOnly {addrs : List Nat} (p : State → Nat) (v : State → Half) :
    Ensures (s.unlessFaulted fun s => .next ((s.setPtr (p s)).respond (v s))) (s.ChangesOnly addrs) :=
  .unlessFaulted changesOnly_refl ((ensures_next _).2 changesOnly_registers)

/-- A command that only answers. -/
theorem answer_changesOnly {addrs : List Nat} (v : State → Half) :
    Ensures (s.unlessFaulted fun s => .next (s.respond (v s))) (s.ChangesOnly addrs) :=
  registersOnly_changesOnly s State.ptr v

/-- RESET writes registers before it writes Version. -/
theorem execReset_changesOnly : Ensures (execReset s) (s.ChangesOnly [4, 5]) :=
  .unlessFaulted changesOnly_refl ((ensures_next _).2 (changesOnly_setField .version _).registers)

/-- The fault of a range check writes STATUS only. -/
theorem faultIf_changesOnly {addrs : List Nat} {bad : State → Bool} {c : Cause} {go : State → State}
    (hgo : s.ChangesOnly addrs (go s)) :
    Ensures (s.unlessFaulted fun s => s.faultIf (bad s) c go) (s.ChangesOnly addrs) :=
  .unlessFaulted changesOnly_refl ((ensures_faultIf _ _ _ _).2 ⟨fun _ => changesOnly_registers, fun _ => hgo⟩)

theorem execWriteU16_changesOnly (v : Half) : Ensures (execWriteU16 v s) (s.ChangesOnly [s.effPtr, s.effPtr + 1]) :=
  faultIf_changesOnly s (changesOnly_memWrite16 s.effPtr v).registers

theorem execReadU16_changesOnly : Ensures (execReadU16 s) (s.ChangesOnly []) :=
  faultIf_changesOnly s changesOnly_registers

theorem execSkip_changesOnly (n : Nat) : Ensures (execSkip n s) (s.ChangesOnly []) :=
  faultIf_changesOnly s changesOnly_registers

theorem execSetLength_changesOnly (n : Nat) : Ensures (execSetLength n s) (s.ChangesOnly []) :=
  faultIf_changesOnly s changesOnly_registers

/-- `UPDATE_CRC` writes the CRC field at a Version that carries one, else nothing. -/
theorem execUpdateCrc_changesOnly :
    Ensures (execUpdateCrc s) (s.ChangesOnly (if CarriesCrc s then [10, 11] else [])) := by
  refine .unlessFaulted changesOnly_refl ((ensures_within _ _ _ _).2 fun _ => (ensures_next _).2 ?_)
  by_cases hc : CarriesCrc s
  · rw [if_pos ((hasCrc_iff s).2 hc), if_pos hc]
    exact (changesOnly_setField .crc _).registers
  · rw [if_neg (mt (hasCrc_iff s).1 hc)]
    exact changesOnly_registers

theorem execCrcIsValid_changesOnly : Ensures (execCrcIsValid s) (s.ChangesOnly []) :=
  .unlessFaulted changesOnly_refl ((ensures_within _ _ _ _).2 fun _ => (ensures_next _).2 changesOnly_registers)

theorem execBufWrite_changesOnly (a : Nat) (b : Byte) : Ensures (execBufWrite a b s) (s.ChangesOnly [a]) :=
  .unlessFaulted changesOnly_refl
    ((ensures_within _ _ _ _).2 fun _ => (ensures_next _).2 (changesOnly_setByte a b).registers)

theorem execBufRead_changesOnly (a : Nat) : Ensures (execBufRead a s) (s.ChangesOnly []) := by
  refine .unlessFaulted changesOnly_refl ?_
  by_cases hl : a ≥ s.len
  · rw [if_pos hl]
    exact (ensures_next _).2 changesOnly_registers
  · rw [if_neg hl, ensures_within]
    exact fun _ => (ensures_next _).2 changesOnly_registers

/-- Every command, whether it completes, faults or is refused, writes no byte outside its row of 20_memory.md R60. -/
theorem exec_changesOnly (i : Instr) : Ensures (exec i s) (s.ChangesOnly (bytesWritten i s)) := by
  cases i with
  | setDeviceId v | setNetworkId v | setVersion v | setAlerts v | setType v | setCrc v =>
    exact commandSet_changesOnly s _ v
  | getDeviceId | getNetworkId | getVersion | getAlerts | getType | getCrc => exact answer_changesOnly s (·.getField _)
  | reset => exact execReset_changesOnly s
  | headerLen => exact answer_changesOnly s fun s => ofCount s.headerLen
  | remaining => exact answer_changesOnly s fun s => ofInteger ((s.len : Int) - (s.ptr : Int))
  | getLength => exact answer_changesOnly s fun s => ofCount s.len
  | rewind => exact registersOnly_changesOnly s State.headerLen fun _ => 0#16
  | writeU16 v => exact execWriteU16_changesOnly s v
  | readU16 => exact execReadU16_changesOnly s
  | skip n => exact execSkip_changesOnly s n
  | setLength n => exact execSetLength_changesOnly s n
  | updateCrc => exact execUpdateCrc_changesOnly s
  | crcIsValid => exact execCrcIsValid_changesOnly s
  | bufWrite a b => exact execBufWrite_changesOnly s a b
  | bufRead a => exact execBufRead_changesOnly s a

end

end Sys2Proof.Machine
end

section
/-!
What a command reads (20_memory.md R60, column "bytes read"): a relation between the outcomes of one command in two states,
with one rule per shared operation of Machine/Ops.lean.
-/

namespace Sys2Proof.Machine

open Sys2Proof.Spec

/-! ### Two states, two outcomes -/

/-- The registers of ZPC and the parameters are the same in both states. -/
structure State.SameCommandInputs (s s' : State) : Prop where
  ptr : s'.ptr = s.ptr
  len : s'.len = s.len
  result : s'.result = s.result
  status : s'.status = s.status
  params : s'.params = s.params

/-- The two states have the same registers and, when no fault is recorded, the same bytes at the addresses listed. -/
def State.EndsAlike (addrs : List Nat) (t t' : State) : Prop :=
  t'.ptr = t.ptr ∧ t'.len = t.len ∧ t'.result = t.result ∧ t'.status = t.status ∧
    (t.InService → ∀ a ∈ addrs, t'.byteAt a = t.byteAt a)

/-- Whenever both outcomes are next states, `R` relates them. -/
def EnsuresBoth (o o' : Host.Outcome State Fault Refusal) (R : State → State → Prop) : Prop :=
  ∀ t t', o = .next t → o' = .next t' → R t t'

@[simp] theorem ensuresBoth_next {R : State → State → Prop} (t t' : State) :
    EnsuresBoth (.next t) (.next t') R ↔ R t t' := by
  simp [EnsuresBoth]

/-! ### What a value read depends on -/

section
variable {s s' : State}

theorem effPtr_congr (hptr : s'.ptr = s.ptr) (hhl : s'.headerLen = s.headerLen) : s'.effPtr = s.effPtr :=
  congrArg₂ max hptr hhl

/-- A span depends on its bytes only. -/
theorem span_congr {a b : Nat} (h : ∀ x, a ≤ x → x < b → s'.byteAt x = s.byteAt x) : s'.span a b = s.span a b := by
  refine List.map_congr_left fun x hx => ?_
  obtain ⟨hax, hxb⟩ := List.mem_range'_1.1 hx
  exact h x hax (by omega)

/-- The checksum depends on the bytes below LEN, those of the CRC field excepted. -/
theorem checksum_congr (hp : s'.params = s.params) (hlen : s'.len = s.len)
    (hb : ∀ x < s.len, x ≠ 10 → x ≠ 11 → s'.byteAt x = s.byteAt x) : s'.checksum = s.checksum := by
  have himage : (s'.setField .crc s'.params.crcSentinel).image = (s.setField .crc s.params.crcSentinel).image := by
    simp only [State.image, setField_len, hlen, hp]
    refine span_congr fun x _ hx => ?_
    simp only [byteAt_setField, offset_crc]
    split_ifs with h11 h10
    · rfl
    · rfl
    · exact hb x hx h10 h11
  rw [State.checksum, State.checksum, himage, hp]

/-- The same 16-bit write leaves the same two bytes in any two states. -/
theorem byteAt_memWrite16_congr {a x : Nat} (v : Half) (hx : x ∈ [a, a + 1]) :
    (s'.memWrite16 a v).byteAt x = (s.memWrite16 a v).byteAt x := by
  rcases List.mem_pair.1 hx with rfl | rfl <;> simp

theorem byteAt_setField_congr {f : HeaderField} {x : Nat} (v : Half) (hx : x ∈ [f.offset, f.offset + 1]) :
    (s'.setField f v).byteAt x = (s.setField f v).byteAt x :=
  byteAt_memWrite16_congr v hx

end

/-! ### One rule per shared operation -/

section
variable {s s' : State} {addrs : List Nat}

/-- Nothing is said of bytes where a fault is recorded. -/
theorem endsAlike_of_faulted {t t' : State} (hf : t.faulted = true) (hptr : t'.ptr = t.ptr) (hlen : t'.len = t.len)
    (hresult : t'.result = t.result) (hstatus : t'.status = t.status) : State.EndsAlike addrs t t' :=
  ⟨hptr, hlen, hresult, hstatus, fun ht => absurd hf (by simp [ht])⟩

variable (h : s.SameCommandInputs s')
include h

/-- The same answer, and nothing written. -/
theorem endsAlike_respond {v v' : Half} (hv : v' = v) : State.EndsAlike [] (s.respond v) (s'.respond v') :=
  ⟨h.ptr, h.len, hv, h.status, fun _ _ hx => nomatch hx⟩

/-- The same cursor and the same answer, and nothing written. -/
theorem endsAlike_setPtr_respond {p p' : Nat} {v v' : Half} (hp : p' = p) (hv : v' = v) :
    State.EndsAlike [] ((s.setPtr p).respond v) ((s'.setPtr p').respond v') :=
  ⟨hp, h.len, hv, h.status, fun _ _ hx => nomatch hx⟩

/-- The same value in the same field. -/
theorem endsAlike_setField_respond {f : HeaderField} {v v' r r' : Half} (hv : v' = v) (hr : r' = r) :
    State.EndsAlike [f.offset, f.offset + 1] ((s.setField f v).respond r) ((s'.setField f v').respond r') :=
  ⟨h.ptr, h.len, hr, h.status, fun _ _ hx => hv ▸ byteAt_setField_congr v hx⟩

/-- Both states refuse the command, or neither does. -/
theorem EnsuresBoth.unlessFaulted {go : State → Host.Outcome State Fault Refusal}
    (hgo : EnsuresBoth (go s) (go s') (State.EndsAlike addrs)) :
    EnsuresBoth (s.unlessFaulted go) (s'.unlessFaulted go) (State.EndsAlike addrs) := by
  have hff : s'.faulted = s.faulted := faulted_congr h.status
  cases hf : s.faulted with
  | true =>
    rw [unlessFaulted_of_faulted hf, unlessFaulted_of_faulted (hff.trans hf), ensuresBoth_next]
    exact endsAlike_of_faulted hf h.ptr h.len h.result h.status
  | false => rwa [unlessFaulted_of_inService hf, unlessFaulted_of_inService (hff.trans hf)]

/-- Both states raise the fault, or neither does. -/
theorem EnsuresBoth.faultIf {bad bad' : Bool} {c : Cause} {go : State → State} (hbad : bad' = bad)
    (hgo : State.EndsAlike addrs (go s) (go s')) :
    EnsuresBoth (s.faultIf bad c go) (s'.faultIf bad' c go) (State.EndsAlike addrs) := by
  subst hbad
  cases bad' with
  | true => exact (ensuresBoth_next _ _).2 (endsAlike_of_faulted (faulted_withFault s c) h.ptr h.len h.result rfl)
  | false => exact (ensuresBoth_next _ _).2 hgo

omit h in
/-- Where both accesses lie inside BUF, the commands decide. -/
theorem EnsuresBoth.within {a n a' n' : Nat} {go go' : State → Host.Outcome State Fault Refusal}
    {R : State → State → Prop} (hgo : EnsuresBoth (go s) (go' s') R) :
    EnsuresBoth (s.within a n go) (s'.within a' n' go') R :=
  fun t t' ht ht' => hgo t t' (within_next ht).2 (within_next ht').2

/-! ### Each command -/

theorem commandSet_endsAlike (f : HeaderField) (v : Half) :
    EnsuresBoth (s.commandSet f v) (s'.commandSet f v) (State.EndsAlike [f.offset, f.offset + 1]) :=
  .unlessFaulted h ((ensuresBoth_next _ _).2 (endsAlike_setField_respond h rfl rfl))

/-- A command that only answers ends alike where its answers are the same. -/
theorem answer_endsAlike (v : State → Half) (hv : v s' = v s) :
    EnsuresBoth (s.unlessFaulted fun s => .next (s.respond (v s))) (s'.unlessFaulted fun s => .next (s.respond (v s)))
      (State.EndsAlike []) :=
  .unlessFaulted h ((ensuresBoth_next _ _).2 (endsAlike_respond h hv))

theorem commandGet_endsAlike (f : HeaderField) (hb : ∀ a ∈ [f.offset, f.offset + 1], s'.byteAt a = s.byteAt a) :
    EnsuresBoth (s.commandGet f) (s'.commandGet f) (State.EndsAlike []) :=
  answer_endsAlike h (·.getField f) (memRead16_congr (hb _ (by simp)) (hb _ (by simp)))

theorem execReset_endsAlike : EnsuresBoth (execReset s) (execReset s') (State.EndsAlike [4, 5]) :=
  .unlessFaulted h ((ensuresBoth_next _ _).2
    ⟨rfl, rfl, rfl, h.status, fun _ _ hx => h.params ▸ byteAt_setField_congr (f := .version) _ hx⟩)

theorem execSetLength_endsAlike (n : Nat) :
    EnsuresBoth (execSetLength n s) (execSetLength n s') (State.EndsAlike []) :=
  .unlessFaulted h (.faultIf h (by rw [h.params])
    ⟨congrArg (min · n) h.ptr, rfl, rfl, h.status, fun _ _ hx => nomatch hx⟩)

theorem execBufWrite_endsAlike (a : Nat) (b : Byte) :
    EnsuresBoth (execBufWrite a b s) (execBufWrite a b s') (State.EndsAlike [a]) := by
  refine .unlessFaulted h (.within ((ensuresBoth_next _ _).2 ⟨h.ptr, h.len, rfl, h.status, fun _ x hx => ?_⟩))
  obtain rfl := List.mem_singleton.1 hx
  simp

theorem execBufRead_endsAlike (a : Nat) (hb : a < s.len → s'.byteAt a = s.byteAt a) :
    EnsuresBoth (execBufRead a s) (execBufRead a s') (State.EndsAlike []) := by
  refine .unlessFaulted h ?_
  rw [h.len]
  by_cases hl : a ≥ s.len
  · rw [if_pos hl, if_pos hl]
    exact (ensuresBoth_next _ _).2
      (endsAlike_of_faulted (faulted_withFault s .viewRange) h.ptr h.len h.result rfl)
  · rw [if_neg hl, if_neg hl]
    exact .within ((ensuresBoth_next _ _).2 (endsAlike_respond h (congrArg ofByte (hb (Nat.not_le.1 hl)))))

section
variable (hv : s'.version = s.version)
include hv

theorem effPtr_congr_of_version : s'.effPtr = s.effPtr :=
  effPtr_congr h.ptr (headerLen_congr h.params hv)

theorem execWriteU16_endsAlike (v : Half) :
    EnsuresBoth (execWriteU16 v s) (execWriteU16 v s') (State.EndsAlike [s.effPtr, s.effPtr + 1]) := by
  have heff : s'.effPtr = s.effPtr := effPtr_congr_of_version h hv
  refine .unlessFaulted h (.faultIf h (by rw [heff, h.params]) ?_)
  rw [heff, h.len, h.params]
  exact ⟨rfl, rfl, rfl, h.status, fun _ _ hx => byteAt_memWrite16_congr v hx⟩

theorem execReadU16_endsAlike (hb : ∀ a ∈ [s.effPtr, s.effPtr + 1], s'.byteAt a = s.byteAt a) :
    EnsuresBoth (execReadU16 s) (execReadU16 s') (State.EndsAlike []) := by
  have heff : s'.effPtr = s.effPtr := effPtr_congr_of_version h hv
  have hword : s'.memRead16 s.effPtr = s.memRead16 s.effPtr := memRead16_congr (hb _ (by simp)) (hb _ (by simp))
  refine .unlessFaulted h (.faultIf h (by rw [heff, h.params]) ?_)
  exact endsAlike_setPtr_respond h (by rw [heff]) (by rw [heff, hword])

theorem execSkip_endsAlike (n : Nat) : EnsuresBoth (execSkip n s) (execSkip n s') (State.EndsAlike []) := by
  have heff : s'.effPtr = s.effPtr := effPtr_congr_of_version h hv
  exact .unlessFaulted h (.faultIf h (by rw [heff, h.params]) (endsAlike_setPtr_respond h (by rw [heff]) rfl))

theorem execRewind_endsAlike : EnsuresBoth (execRewind s) (execRewind s') (State.EndsAlike []) :=
  .unlessFaulted h ((ensuresBoth_next _ _).2 (endsAlike_setPtr_respond h (headerLen_congr h.params hv) rfl))

theorem execUpdateCrc_endsAlike (hb : ∀ a < s.len, s'.byteAt a = s.byteAt a) :
    EnsuresBoth (execUpdateCrc s) (execUpdateCrc s')
      (State.EndsAlike (if CarriesCrc s then [10, 11] else [])) := by
  have hsum : s'.checksum = s.checksum := checksum_congr h.params h.len fun a ha _ _ => hb a ha
  refine .unlessFaulted h (.within ((ensuresBoth_next _ _).2 ?_))
  rw [hasCrc_congr h.params hv]
  by_cases hc : CarriesCrc s
  · rw [if_pos ((hasCrc_iff s).2 hc), if_pos ((hasCrc_iff s).2 hc), if_pos hc]
    exact endsAlike_setField_respond (f := .crc) h hsum hsum
  · rw [if_neg (mt (hasCrc_iff s).1 hc), if_neg (mt (hasCrc_iff s).1 hc), if_neg hc]
    exact endsAlike_respond h rfl

theorem execCrcIsValid_endsAlike (hcrc : s'.getField .crc = s.getField .crc)
    (hb : ∀ a < s.len, s'.byteAt a = s.byteAt a) :
    EnsuresBoth (execCrcIsValid s) (execCrcIsValid s') (State.EndsAlike []) := by
  have hsum : s'.checksum = s.checksum := checksum_congr h.params h.len fun a ha _ _ => hb a ha
  refine .unlessFaulted h (.within ((ensuresBoth_next _ _).2 (endsAlike_respond h ?_)))
  rw [hasCrc_congr h.params hv, hsum, hcrc]

end

/-- What any command does depends only on the registers, the parameters and the bytes of its row of 20_memory.md R60. -/
theorem exec_endsAlike (i : Instr) (hb : ∀ a ∈ bytesRead i s, s'.byteAt a = s.byteAt a) :
    EnsuresBoth (exec i s) (exec i s') (State.EndsAlike (bytesWritten i s)) := by
  have hversion (h4 : 4 ∈ bytesRead i s) (h5 : 5 ∈ bytesRead i s) : s'.version = s.version :=
    version_congr (hb 4 h4) (hb 5 h5)
  cases i with
  | setDeviceId v | setNetworkId v | setVersion v | setAlerts v | setType v | setCrc v =>
    exact commandSet_endsAlike h _ v
  | getDeviceId | getNetworkId | getVersion | getAlerts | getType | getCrc => exact commandGet_endsAlike h _ hb
  | reset => exact execReset_endsAlike h
  | remaining =>
    exact answer_endsAlike h (fun s => ofInteger ((s.len : Int) - (s.ptr : Int))) (by rw [h.len, h.ptr])
  | getLength => exact answer_endsAlike h (fun s => ofCount s.len) (by rw [h.len])
  | setLength n => exact execSetLength_endsAlike h n
  | bufWrite a b => exact execBufWrite_endsAlike h a b
  | bufRead a => exact execBufRead_endsAlike h a fun hl => hb a (by simp [bytesRead, hl])
  | headerLen =>
    have hv := hversion (by simp [bytesRead]) (by simp [bytesRead])
    exact answer_endsAlike h (fun s => ofCount s.headerLen) (by rw [headerLen_congr h.params hv])
  | writeU16 v => exact execWriteU16_endsAlike h (hversion (by simp [bytesRead]) (by simp [bytesRead])) v
  | skip n => exact execSkip_endsAlike h (hversion (by simp [bytesRead]) (by simp [bytesRead])) n
  | rewind => exact execRewind_endsAlike h (hversion (by simp [bytesRead]) (by simp [bytesRead]))
  | readU16 =>
    exact execReadU16_endsAlike h (hversion (by simp [bytesRead]) (by simp [bytesRead])) fun a ha =>
      hb a (List.mem_cons_of_mem 4 (List.mem_cons_of_mem 5 ha))
  | updateCrc =>
    exact execUpdateCrc_endsAlike h (hversion (by simp [bytesRead]) (by simp [bytesRead])) fun a ha =>
      hb a (List.mem_append_right [4, 5] (List.mem_range.2 ha))
  | crcIsValid =>
    exact execCrcIsValid_endsAlike h (hversion (by simp [bytesRead]) (by simp [bytesRead]))
      (memRead16_congr (hb 10 (by simp [bytesRead])) (hb 11 (by simp [bytesRead]))) fun a ha =>
      hb a (List.mem_append_right [4, 5, 10, 11] (List.mem_range.2 ha))

end

end Sys2Proof.Machine
end

section
/-!
Queries (20_memory.md R67): what they leave unchanged, and what a second one finds.
-/

namespace Sys2Proof.Machine

open Sys2Proof.Spec

variable {s t : State}

/-- After the query `q` from `s` to `t` BUF, PTR and LEN are as before and the query, issued again, changes nothing. -/
def IsQuiet (q : State → Host.Outcome State Fault Refusal) (s t : State) : Prop :=
  s.SameBytes t ∧ t.ptr = s.ptr ∧ t.len = s.len ∧ q t = .next t

/-- A refused query is refused again. -/
theorem isQuiet_of_refused {go : State → Host.Outcome State Fault Refusal} (hf : s.faulted = true) :
    IsQuiet (·.unlessFaulted go) s s :=
  ⟨fun _ => rfl, rfl, rfl, unlessFaulted_of_faulted hf go⟩

/-- A query that faulted is refused when it is issued again. -/
theorem isQuiet_withFault {go : State → Host.Outcome State Fault Refusal} (c : Cause) :
    IsQuiet (·.unlessFaulted go) s (s.withFault c) :=
  ⟨fun _ => rfl, rfl, rfl, unlessFaulted_of_faulted (faulted_withFault s c) go⟩

/-- A query that answered is quiet when the state with the answer in RESULT gets the same answer. -/
theorem isQuiet_respond {go : State → Host.Outcome State Fault Refusal} {v : Half} (hs : s.InService)
    (hagain : go (s.respond v) = .next (s.respond v)) : IsQuiet (·.unlessFaulted go) s (s.respond v) :=
  ⟨fun _ => rfl, rfl, rfl, (unlessFaulted_of_inService ((faulted_respond s v).trans hs) go).trans hagain⟩

/-- A command that answers from what is not RESULT is a query. -/
theorem answer_isQuiet (v : State → Half) (hv : ∀ r, v (s.respond r) = v s) :
    Ensures (s.unlessFaulted fun s => .next (s.respond (v s)))
      (IsQuiet (·.unlessFaulted fun s => .next (s.respond (v s))) s) := by
  refine (ensures_unlessFaulted _ _).2 ⟨isQuiet_of_refused, fun hs => (ensures_next _).2 (isQuiet_respond hs ?_)⟩
  rw [hv]
  rfl

/-- An access inside BUF is one after an answer, too. -/
theorem within_respond {a n : Nat} {v : Half} (hfit : a + n ≤ s.params.bufSize)
    (go : State → Host.Outcome State Fault Refusal) : (s.respond v).within a n go = go (s.respond v) :=
  within_of_le (s := s.respond v) hfit go

theorem execCrcIsValid_isQuiet : Ensures (execCrcIsValid s) (IsQuiet execCrcIsValid s) :=
  (ensures_unlessFaulted _ _).2 ⟨isQuiet_of_refused, fun hs => (ensures_within _ _ _ _).2 fun hfit =>
    (ensures_next _).2 (isQuiet_respond hs (within_respond hfit _))⟩

theorem execBufRead_isQuiet (a : Nat) : Ensures (execBufRead a s) (IsQuiet (execBufRead a) s) := by
  refine (ensures_unlessFaulted _ _).2 ⟨isQuiet_of_refused, fun hs => ?_⟩
  by_cases hl : a ≥ s.len
  · rw [if_pos hl]
    exact (ensures_next _).2 (isQuiet_withFault .viewRange)
  · rw [if_neg hl, ensures_within]
    exact fun hfit => (ensures_next _).2 (isQuiet_respond hs ((if_neg hl).trans (within_respond hfit _)))

/-- Every query of 20_memory.md R67 is quiet, whether it answers, faults or is refused. -/
theorem exec_isQuiet {i : Instr} (hi : isQuery i = true) : Ensures (exec i s) (IsQuiet (exec i) s) := by
  cases i with
  | reset | setDeviceId | setNetworkId | setVersion | setAlerts | setType | setCrc | writeU16 | readU16 | skip
  | setLength | rewind | updateCrc | bufWrite =>
    exact nomatch hi
  | getDeviceId | getNetworkId | getVersion | getAlerts | getType | getCrc =>
    exact answer_isQuiet (·.getField _) fun _ => rfl
  | headerLen => exact answer_isQuiet (fun s => ofCount s.headerLen) fun _ => rfl
  | remaining => exact answer_isQuiet (fun s => ofInteger ((s.len : Int) - (s.ptr : Int))) fun _ => rfl
  | getLength => exact answer_isQuiet (fun s => ofCount s.len) fun _ => rfl
  | crcIsValid => exact execCrcIsValid_isQuiet
  | bufRead a => exact execBufRead_isQuiet a

theorem ptr_le_effPtr (s : State) : s.ptr ≤ s.effPtr := le_max_left _ _

theorem skip_inService {n : Nat} (h : exec (.skip n) s = .next t) (ht : t.InService) :
    t = (s.setPtr (s.effPtr + n)).respond 0#16 := by
  change execSkip n s = .next t at h
  obtain ⟨_, _, hgo⟩ := faultIf_inService h ht
  exact hgo

/-- A `READ_U16` that succeeds moves PTR forward: it ends past the effective cursor. -/
theorem ptr_lt_of_readU16 (h : exec .readU16 s = .next t) (ht : t.InService) : s.ptr < t.ptr := by
  obtain ⟨_, rfl⟩ := readU16_inService h ht
  exact Nat.lt_add_right 1 (Nat.lt_succ_of_le (ptr_le_effPtr s))

/-- So does a `SKIP` of a positive count. -/
theorem ptr_lt_of_skip {n : Nat} (hn : 0 < n) (h : exec (.skip n) s = .next t) (ht : t.InService) :
    s.ptr < t.ptr := by
  rw [skip_inService h ht]
  exact Nat.lt_of_le_of_lt (ptr_le_effPtr s) (Nat.lt_add_of_pos_right hn)

end Sys2Proof.Machine
end

section
/-!
Views of the same bytes by commands of both widths (20_memory.md R61, R62).
-/

namespace Sys2Proof.Machine

open Sys2Proof.Spec

variable {s t : State}

/-! ### The field commands, by field -/

theorem offset_eq_offsetOf (f : HeaderField) : f.offset = offsetOf f := by
  cases f <;> rfl

theorem exec_setCommand (hs : s.InService) (f : HeaderField) (v : Half) :
    exec (setCommand f v) s = .next ((s.setField f v).respond 0#16) := by
  cases f with
  | deviceId => exact exec_setDeviceId hs v
  | networkId => exact exec_setNetworkId hs v
  | version => exact exec_setVersion hs v
  | alerts => exact exec_setAlerts hs v
  | type => exact exec_setType hs v
  | crc => exact exec_setCrc hs v

theorem exec_getCommand (hs : s.InService) (f : HeaderField) :
    exec (getCommand f) s = .next (s.respond (s.getField f)) := by
  cases f with
  | deviceId => exact exec_getDeviceId hs
  | networkId => exact exec_getNetworkId hs
  | version => exact exec_getVersion hs
  | alerts => exact exec_getAlerts hs
  | type => exact exec_getType hs
  | crc => exact exec_getCrc hs

/-! ### A 16-bit write, read bytewise -/

/-- `BUF_READ` below LEN answers the byte, zero-extended. -/
theorem bufRead_completes {a : Nat} {b : Byte} (ht : t.InService) (hl : a < t.len) (ha : a < t.params.bufSize)
    (hb : t.byteAt a = b) : Completes (.bufRead a) t fun u => u.result = b.setWidth 16 :=
  ⟨_, exec_bufRead ht hl ha, congrArg ofByte hb⟩

/-- Where the last write of BUF was `v` at `a`, two `BUF_READ`s answer its high byte and then its low byte. -/
theorem bufRead_pair_completes {a : Nat} {v : Half} (ht : t.InService) (hl : a + 1 < t.len)
    (ha : a + 1 < t.params.bufSize) (hbytes : (s.memWrite16 a v).SameBytes t) :
    Completes (.bufRead a) t (fun u => u.result = (v.extractLsb' 8 8).setWidth 16) ∧
    Completes (.bufRead (a + 1)) t (fun u => u.result = (v.extractLsb' 0 8).setWidth 16) := by
  have hhigh : t.byteAt a = highByte v := by rw [hbytes a, byteAt_memWrite16, if_neg (by omega), if_pos rfl]
  have hlow : t.byteAt (a + 1) = lowByte v := by rw [hbytes (a + 1), byteAt_memWrite16, if_pos rfl]
  exact ⟨bufRead_completes ht (by omega) (by omega) hhigh, bufRead_completes ht hl ha hlow⟩

/-- A `WRITE_U16` that succeeds found its word inside BUF. -/
theorem writeU16_fits {v : Half} (h : exec (.writeU16 v) s = .next t) (ht : t.InService) :
    s.effPtr + 2 ≤ s.params.bufSize := by
  change execWriteU16 v s = .next t at h
  obtain ⟨_, hq, _⟩ := faultIf_inService h ht
  exact Nat.not_lt.1 (of_decide_eq_false hq)

theorem writeU16_read_bytewise {v : Half} (h : exec (.writeU16 v) s = .next t) (ht : t.InService) :
    Completes (.bufRead s.effPtr) t (fun u => u.result = (v.extractLsb' 8 8).setWidth 16) ∧
    Completes (.bufRead (s.effPtr + 1)) t (fun u => u.result = (v.extractLsb' 0 8).setWidth 16) := by
  have hfit : s.effPtr + 2 ≤ s.params.bufSize := writeU16_fits h ht
  obtain rfl := writeU16_inService h ht
  exact bufRead_pair_completes ht (le_lenUpd _ _ _) hfit fun _ => rfl

theorem setCommand_read_bytewise {f : HeaderField} {v : Half} (hp : s.params.Consistent) (hs : s.InService)
    (hl : offsetOf f + 1 < s.len) (h : exec (setCommand f v) s = .next t) :
    Completes (.bufRead (offsetOf f)) t (fun u => u.result = (v.extractLsb' 8 8).setWidth 16) ∧
    Completes (.bufRead (offsetOf f + 1)) t (fun u => u.result = (v.extractLsb' 0 8).setWidth 16) := by
  rw [exec_setCommand hs f v] at h
  cases h
  rw [← offset_eq_offsetOf] at hl ⊢
  have hoff : f.offset ≤ 10 := offset_le f
  have hsize : 256 ≤ s.params.bufSize := hp.1
  exact bufRead_pair_completes hs hl (by simp only [respond_params, setField_params]; omega) fun _ => rfl

/-! ### Two byte writes, read as 16 bits -/

/-- A `BUF_WRITE` with a next state found its address inside BUF. -/
theorem bufWrite_inService {a : Nat} {b : Byte} (hs : s.InService) (h : exec (.bufWrite a b) s = .next t) :
    a + 1 ≤ s.params.bufSize ∧ t = (s.setByte a b).respond 0#16 := by
  change execBufWrite a b s = .next t at h
  rw [execBufWrite, unlessFaulted_of_inService hs] at h
  obtain ⟨hfit, hgo⟩ := within_next h
  exact ⟨hfit, by simpa using hgo.symm⟩

/-- Two `BUF_WRITE`s at `a` and `a + 1` are one 16-bit write of the two bytes, the first one high. -/
theorem bufWrite_pair {a : Nat} {b c : Byte} {s₁ s₂ : State} (hs : s.InService)
    (h₁ : exec (.bufWrite a b) s = .next s₁) (h₂ : exec (.bufWrite (a + 1) c) s₁ = .next s₂) :
    a + 2 ≤ s.params.bufSize ∧ s₂ = (s.memWrite16 a (joinBytes b c)).respond 0#16 := by
  obtain ⟨_, rfl⟩ := bufWrite_inService hs h₁
  obtain ⟨hfit, rfl⟩ := bufWrite_inService (s := (s.setByte a b).respond 0#16) hs h₂
  refine ⟨hfit, ?_⟩
  rw [State.memWrite16, highByte_joinBytes, lowByte_joinBytes]
  rfl

/-- A 16-bit write at the effective cursor, which is past Version, leaves the effective cursor where it is. -/
theorem effPtr_memWrite16_effPtr (hp : s.params.Consistent) (v : Half) :
    (s.memWrite16 s.effPtr v).effPtr = s.effPtr := by
  have hhl : 10 ≤ s.headerLen := (headerLen_bounds hp).1
  have heff : s.headerLen ≤ s.effPtr := headerLen_le_effPtr s
  have hversion : (s.memWrite16 s.effPtr v).version = s.version :=
    memRead16_memWrite16_disjoint s v (.inl (by rw [offset_version]; omega))
  exact congrArg (max s.ptr) (headerLen_congr rfl hversion)

theorem bufWrite_pair_readU16 {b c : Byte} {s₁ s₂ : State} (hp : s.params.Consistent) (hs : s.InService)
    (h₁ : exec (.bufWrite s.effPtr b) s = .next s₁) (h₂ : exec (.bufWrite (s.effPtr + 1) c) s₁ = .next s₂) :
    Completes .readU16 s₂ fun u => u.result.toNat = bigEndian b c := by
  obtain ⟨hfit, rfl⟩ := bufWrite_pair hs h₁ h₂
  have heff : ((s.memWrite16 s.effPtr (joinBytes b c)).respond 0#16).effPtr = s.effPtr := effPtr_memWrite16_effPtr hp _
  have hword : ((s.memWrite16 s.effPtr (joinBytes b c)).respond 0#16).memRead16 s.effPtr = joinBytes b c :=
    memRead16_memWrite16 s s.effPtr _
  refine ⟨_, exec_readU16 hs (by rw [heff]; exact hfit), ?_⟩
  rw [heff, hword]
  exact joinBytes_toNat b c

theorem bufWrite_pair_getCommand {f : HeaderField} {b c : Byte} {s₁ s₂ : State} (hs : s.InService)
    (h₁ : exec (.bufWrite (offsetOf f) b) s = .next s₁) (h₂ : exec (.bufWrite (offsetOf f + 1) c) s₁ = .next s₂) :
    Completes (getCommand f) s₂ fun u => u.result.toNat = bigEndian b c := by
  rw [← offset_eq_offsetOf] at h₁ h₂
  obtain ⟨_, rfl⟩ := bufWrite_pair hs h₁ h₂
  have hword : ((s.memWrite16 f.offset (joinBytes b c)).respond 0#16).getField f = joinBytes b c :=
    memRead16_memWrite16 s f.offset _
  refine ⟨_, exec_getCommand (s := (s.memWrite16 f.offset (joinBytes b c)).respond 0#16) hs f, ?_⟩
  rw [hword]
  exact joinBytes_toNat b c

end Sys2Proof.Machine
end

section
/-!
The statements of 20_memory.md.
-/

namespace Sys2Proof.Proofs

open Sys2Proof.Machine

/-- Settles O16: each command is made of operations that write the bytes of its row or registers only. -/
theorem commandsWriteOnlyTheirBytes : Obligations.CommandsWriteOnlyTheirBytes :=
  fun i s => exec_changesOnly s i

/-- Settles O17: in two states that agree on its row a command passes or fails the same checks and computes the same
values. -/
theorem commandsReadOnlyTheirBytes : Obligations.CommandsReadOnlyTheirBytes :=
  fun i _ _ t t' hptr hlen hresult hstatus hparams hb h h' =>
    exec_endsAlike ⟨hptr, hlen, hresult, hstatus, hparams⟩ i hb t t' h h'

/-- Settles O18: a query writes RESULT or STATUS only and does not read RESULT; `READ_U16` and `SKIP` end past the effective
cursor. -/
theorem queriesHaveNoSideEffect : Obligations.QueriesHaveNoSideEffect :=
  ⟨fun _ _ t hi h => exec_isQuiet hi t h, fun _ _ _ => ptr_lt_of_readU16, fun _ _ _ hn _ => ptr_lt_of_skip hn⟩

/-- Settles O19: both widths go through one byte order, and two `BUF_WRITE`s make one 16-bit write, which at the cursor does
not move the header length. -/
theorem mixedWidthViewsAgree : Obligations.MixedWidthViewsAgree :=
  ⟨fun _ _ _ _ => writeU16_read_bytewise, fun _ _ _ _ => setCommand_read_bytewise,
    fun _ _ _ _ _ => bufWrite_pair_readU16, fun _ _ _ _ _ _ => bufWrite_pair_getCommand⟩

end Sys2Proof.Proofs
end

section
/-!
Decoding and encoding are inverse (30_encoding.md R84, R87, R89): one lemma per operand form (R82) for each direction,
and the rows of the opcode map.
-/

namespace Sys2Proof

/-! ### The operands of a well-formed command (30_encoding.md R82) -/

theorem countFits_iff (n : Nat) : countFits n = true ↔ n < 2 ^ 16 := decide_eq_true_iff

theorem indexFits_iff (i : Nat) : indexFits i = true ↔ i < 2 ^ 8 := decide_eq_true_iff

theorem toNat_ofNat_of_countFits {n : Nat} (hn : countFits n = true) : (BitVec.ofNat 16 n).toNat = n :=
  (BitVec.toNat_ofNat n 16).trans (Nat.mod_eq_of_lt ((countFits_iff n).1 hn))

theorem toNat_ofNat_of_indexFits {i : Nat} (hi : indexFits i = true) : (BitVec.ofNat 8 i).toNat = i :=
  (BitVec.toNat_ofNat i 8).trans (Nat.mod_eq_of_lt ((indexFits_iff i).1 hi))

/-! ### Decoding the word of a command, by form -/

variable {opc : BitVec 8}

theorem decode_commandWord_z {cmd : Instr} (h : opcodeMap.lookup opc = some (.z cmd)) :
    decode (commandWord opc 0#16) = .ok cmd :=
  decode_commandWord h 0#16

theorem decode_commandWord_v {cmd : Half → Instr} (h : opcodeMap.lookup opc = some (.v cmd)) (v : Half) :
    decode (commandWord opc v) = .ok (cmd v) :=
  decode_commandWord h v

theorem decode_commandWord_n {cmd : Nat → Instr} (h : opcodeMap.lookup opc = some (.n cmd)) {n : Nat}
    (hn : countFits n = true) : decode (commandWord opc (BitVec.ofNat 16 n)) = .ok (cmd n) := by
  rw [decode_commandWord h, readOperands, toNat_ofNat_of_countFits hn]

theorem decode_commandWord_b {cmd : Nat → Byte → Instr} (h : opcodeMap.lookup opc = some (.b cmd)) {i : Nat}
    (hi : indexFits i = true) (b : Byte) :
    decode (commandWord opc (indexAndByte (BitVec.ofNat 8 i) b)) = .ok (cmd i b) := by
  rw [decode_commandWord h, readOperands, immHigh_indexAndByte, immLow_indexAndByte, toNat_ofNat_of_indexFits hi]

theorem decode_commandWord_i {cmd : Nat → Instr} (h : opcodeMap.lookup opc = some (.i cmd)) {i : Nat}
    (hi : indexFits i = true) : decode (commandWord opc (indexAndByte 0#8 (BitVec.ofNat 8 i))) = .ok (cmd i) := by
  rw [decode_commandWord h, readOperands, immHigh_indexAndByte, immLow_indexAndByte, toNat_ofNat_of_indexFits hi,
    if_pos rfl]

/-- Each command stands in the opcode map under its opcode, and its form reads its operand back. -/
theorem decode_encode {i : Instr} (hi : i.wf = true) : decode (encode i) = .ok i := by
  cases i with
  | reset | getDeviceId | getNetworkId | getVersion | getAlerts | getType | getCrc | headerLen | readU16 | remaining
  | getLength | rewind | updateCrc | crcIsValid => exact decode_commandWord_z rfl
  | setDeviceId v | setNetworkId v | setVersion v | setAlerts v | setType v | setCrc v | writeU16 v =>
    exact decode_commandWord_v rfl v
  | skip n | setLength n => exact decode_commandWord_n rfl hi
  | bufWrite i b => exact decode_commandWord_b rfl hi b
  | bufRead i => exact decode_commandWord_i rfl hi

/-! ### The word a command was decoded from -/

/-- A word decodes to a command by the row of its opcode, with RSV 0 (30_encoding.md R89). -/
theorem decode_eq_ok_iff {w : Word} {i : Instr} :
    decode w = .ok i ↔
      ∃ row, opcodeMap.lookup (opcField w) = some row ∧ rsvField w = 0#8 ∧
        readOperands row (immField w) = .ok i := by
  cases hrow : opcodeMap.lookup (opcField w) with
  | none => simp [decode, hrow]
  | some row => by_cases hrsv : rsvField w = 0#8 <;> simp [decode, hrow, hrsv]

/-- What `encode` owes the row under the opcode `opc`: every command the row makes of operands that fit its form is
well-formed, and its word has the opcode `opc` and these operands (30_encoding.md R82, R87). -/
def FormRow.EncodedUnder (opc : BitVec 8) : FormRow → Prop
  | .z cmd => cmd.wf = true ∧ encode cmd = commandWord opc 0#16
  | .v cmd => ∀ v, (cmd v).wf = true ∧ encode (cmd v) = commandWord opc v
  | .n cmd => ∀ n, countFits n = true → (cmd n).wf = true ∧ encode (cmd n) = commandWord opc (BitVec.ofNat 16 n)
  | .b cmd => ∀ i b, indexFits i = true →
      (cmd i b).wf = true ∧ encode (cmd i b) = commandWord opc (indexAndByte (BitVec.ofNat 8 i) b)
  | .i cmd => ∀ i, indexFits i = true →
      (cmd i).wf = true ∧ encode (cmd i) = commandWord opc (indexAndByte 0#8 (BitVec.ofNat 8 i))

theorem opcodeMap_encodedUnder : ∀ e ∈ opcodeMap, e.2.EncodedUnder e.1 := by
  simp only [opcodeMap, List.forall_mem_cons, FormRow.EncodedUnder]
  simp [Instr.wf, encode]

/-- The operand a row reads is the operand of the command it makes. -/
theorem encode_of_readOperands {row : FormRow} {imm : Half} {i : Instr} (henc : row.EncodedUnder opc)
    (hread : readOperands row imm = .ok i) : i.wf = true ∧ encode i = commandWord opc imm := by
  cases row with
  | z cmd =>
    obtain ⟨rfl, rfl⟩ : imm = 0#16 ∧ cmd = i := by simpa [readOperands, ite_eq_iff] using hread
    exact henc
  | v cmd =>
    cases hread
    exact henc imm
  | n cmd =>
    cases hread
    simpa using henc imm.toNat ((countFits_iff _).2 imm.isLt)
  | b cmd =>
    cases hread
    simpa using henc (immHigh imm).toNat (immLow imm) ((indexFits_iff _).2 (immHigh imm).isLt)
  | i cmd =>
    obtain ⟨hhigh, rfl⟩ : immHigh imm = 0#8 ∧ cmd (immLow imm).toNat = i := by
      simpa [readOperands, ite_eq_iff] using hread
    simpa [← hhigh] using henc (immLow imm).toNat ((indexFits_iff _).2 (immLow imm).isLt)

/-- The opcode and the operand determine a word with RSV 0, and the command decoded from it has both. -/
theorem encode_of_decode {w : Word} {i : Instr} (h : decode w = .ok i) : i.wf = true ∧ encode i = w := by
  obtain ⟨row, hrow, hrsv, hread⟩ := decode_eq_ok_iff.1 h
  have henc : row.EncodedUnder (opcField w) := opcodeMap_encodedUnder (opcField w, row) (mem_of_lookup hrow)
  rw [← commandWord_fields hrsv]
  exact encode_of_readOperands henc hread

/-- Decoding a word written as the word of a well-formed command. -/
theorem decode_of_encode_eq {w : Word} {i : Instr} (hi : i.wf = true) (hw : encode i = w) : decode w = .ok i :=
  hw ▸ decode_encode hi

end Sys2Proof
end

section
/-!
The illegal words (30_encoding.md R85): the decoder's errors are the four conditions on the bits of the word.
-/

namespace Sys2Proof

open Sys2Proof.Spec

/-- What a row refuses of its operand: conditions 3 and 4 of 30_encoding.md R85. -/
def FormRow.Refuses (imm : Half) : FormRow → Prop
  | .z _ => imm ≠ 0#16
  | .i _ => immHigh imm ≠ 0#8
  | .v _ | .n _ | .b _ => False

theorem readOperands_eq_error_iff (row : FormRow) (imm : Half) :
    (∃ e, readOperands row imm = .error e) ↔ row.Refuses imm := by
  cases row with
  | z cmd => by_cases h : imm = 0#16 <;> simp [readOperands, FormRow.Refuses, h]
  | i cmd => by_cases h : immHigh imm = 0#8 <;> simp [readOperands, FormRow.Refuses, h]
  | v cmd | n cmd | b cmd => simp [readOperands, FormRow.Refuses]

/-- A word is in error when its opcode is not in the map, RSV is not 0 or its row refuses its operand. -/
theorem decode_eq_error_iff (w : Word) :
    (∃ e, decode w = .error e) ↔
      ∀ row, opcodeMap.lookup (opcField w) = some row → rsvField w ≠ 0#8 ∨ row.Refuses (immField w) := by
  cases hrow : opcodeMap.lookup (opcField w) with
  | none => simp [decode, hrow]
  | some row =>
    by_cases hrsv : rsvField w = 0#8
    · simp [decode, hrow, hrsv, readOperands_eq_error_iff]
    · simp [decode, hrow, hrsv]

/-- The opcode `opc` stands in the one of the spec's lists that holds the opcodes of the row's form. -/
def FormRow.ListedUnder (opc : BitVec 8) : FormRow → Prop
  | .z _ => opc ∈ zOpcodes ∧ opc ≠ 0x41#8
  | .v _ | .n _ | .b _ => opc ∈ openOpcodes ∧ opc ∉ zOpcodes ∧ opc ≠ 0x41#8
  | .i _ => opc = 0x41#8 ∧ opc ∉ zOpcodes

theorem opcodeMap_listedUnder : ∀ e ∈ opcodeMap, e.2.ListedUnder e.1 := by
  simp only [opcodeMap, List.forall_mem_cons, FormRow.ListedUnder]
  simp [zOpcodes, openOpcodes]

theorem mem_opcodeMap_of_listed : ∀ opc ∈ zOpcodes ++ openOpcodes ++ [0x41#8], opc ∈ opcodeMap.map Prod.fst := by
  simp [opcodeMap, zOpcodes, openOpcodes]

/-- The spec's lists hold no opcode that is not in the map. -/
theorem not_listed_of_lookup_none {opc : BitVec 8} (h : opcodeMap.lookup opc = none) :
    opc ∉ zOpcodes ∧ opc ∉ openOpcodes ∧ opc ≠ 0x41#8 := by
  have hmap : opc ∉ opcodeMap.map Prod.fst := fun hm => by
    obtain ⟨e, he, rfl⟩ := List.mem_map.1 hm
    simpa using List.lookup_eq_none_iff.1 h e he
  simpa [and_assoc] using fun hl => hmap (mem_opcodeMap_of_listed opc hl)

/-- IMM[15:8] is bits 15:8 of the word. -/
theorem immHigh_immField (w : Word) : immHigh (immField w) = w.extractLsb' 8 8 := by
  ext i hi
  simp [immHigh, immField]

/-- The four conditions, through the fields of the word. -/
theorem illegal_iff_fields (w : Word) :
    Illegal w ↔
      (opcField w ∉ zOpcodes ∧ opcField w ∉ openOpcodes ∧ opcField w ≠ 0x41#8) ∨ rsvField w ≠ 0#8 ∨
      (opcField w ∈ zOpcodes ∧ immField w ≠ 0#16) ∨ (opcField w = 0x41#8 ∧ immHigh (immField w) ≠ 0#8) := by
  rw [immHigh_immField]
  rfl

/-- Under an opcode of the map a word is illegal when RSV is not 0 or the row refuses the operand. -/
theorem illegal_iff_of_lookup {w : Word} {row : FormRow} (h : opcodeMap.lookup (opcField w) = some row) :
    Illegal w ↔ rsvField w ≠ 0#8 ∨ row.Refuses (immField w) := by
  have hlisted : row.ListedUnder (opcField w) := opcodeMap_listedUnder _ (mem_of_lookup h)
  rw [illegal_iff_fields]
  cases row with
  | z cmd =>
    obtain ⟨hz, hi⟩ := hlisted
    simp [FormRow.Refuses, hz, hi]
  | v cmd | n cmd | b cmd =>
    obtain ⟨hopen, hz, hi⟩ := hlisted
    simp [FormRow.Refuses, hopen, hz, hi]
  | i cmd =>
    obtain ⟨hi, hz⟩ := hlisted
    rw [hi] at hz ⊢
    simp [FormRow.Refuses, hz]

/-- The decoder's errors are exactly the illegal words of 30_encoding.md R85. -/
theorem decode_error_iff_illegal (w : Word) : (∃ e, decode w = .error e) ↔ Illegal w := by
  rw [decode_eq_error_iff]
  cases hrow : opcodeMap.lookup (opcField w) with
  | none => simpa using (illegal_iff_fields w).2 (.inl (not_listed_of_lookup_none hrow))
  | some row => simp [illegal_iff_of_lookup hrow]

/-- Every other word is a command. -/
theorem exists_decode_of_not_illegal {w : Word} (h : ¬ Illegal w) : ∃ i, decode w = .ok i := by
  cases hd : decode w with
  | error e => exact absurd ((decode_error_iff_illegal w).1 ⟨e, hd⟩) h
  | ok i => exact ⟨i, rfl⟩

end Sys2Proof

namespace Sys2Proof.Machine

/-- Taking the input leaves the rest of what arrives. -/
theorem takeInput_eq {s : State} {x : Input} {rest : List Input} (hi : s.inputs = x :: rest) :
    s.takeInput = { s with inputs := rest } := by
  rw [State.takeInput, hi, List.tail_cons]

/-- ILLEGAL_COMMAND changes STATUS only (60_exceptions.md R212, R213). -/
theorem withFault_illegalCommand (s : State) : s.withFault .illegalCommand = { s with status := 0x0011#16 } := by
  rw [State.withFault, faultStatus_illegalCommand]

end Sys2Proof.Machine
end

section
/-!
The statements of 30_encoding.md.
-/

namespace Sys2Proof.Proofs

open Sys2Proof.Machine

/-- Settles O4: the opcode of each command is looked up to its own row, whose form reads its operand back. -/
theorem decodeInvertsEncode : Obligations.DecodeInvertsEncode :=
  fun _ hi => decode_encode hi

/-- Settles O5: a word with RSV 0 is its opcode and its operand, and no form drops a bit of the operand. -/
theorem decodedWordIsItsEncoding : Obligations.DecodedWordIsItsEncoding :=
  fun _ _ h => encode_of_decode h

/-- Settles O6: the illegal words are the decoder's errors, and a step raises the fault on each error. -/
theorem illegalWordsFault : Obligations.IllegalWordsFault := by
  refine fun s w rest hi hs => ⟨fun hill => ?_, fun hleg => ?_⟩
  · obtain ⟨e, hd⟩ := (decode_error_iff_illegal w).2 hill
    rw [step_illegal hi hs hd, takeInput_eq hi, withFault_illegalCommand]
  · obtain ⟨i, hd⟩ := exists_decode_of_not_illegal hleg
    exact ⟨i, hd, takeInput_eq hi ▸ step_executed hi hs hd⟩

/-- Settles O1: in service a step decodes the word, takes it from the port and executes the command. -/
theorem stepRunsDecodedCommand : Obligations.StepRunsDecodedCommand :=
  fun _ _ _ _ hi hs hd => takeInput_eq hi ▸ step_executed hi hs hd

/-- Settles O2: the idle case of a step. -/
theorem idlePortChangesNothing : Obligations.IdlePortChangesNothing :=
  fun _ hi => step_idle hi

/-- Settles O3: seven of the words are the words of their commands; the eighth breaks condition 4 of R85. -/
theorem specWordsDecode : Obligations.SpecWordsDecode :=
  ⟨decode_of_encode_eq rfl rfl, decode_of_encode_eq rfl rfl, decode_of_encode_eq rfl rfl, decode_of_encode_eq rfl rfl,
    decode_of_encode_eq rfl rfl, decode_of_encode_eq rfl rfl, decode_of_encode_eq rfl rfl, rfl⟩

end Sys2Proof.Proofs
end

section
/-!
The header fields as two-byte cells of BUF that do not meet (10_state.md R36).
-/

namespace Sys2Proof.Machine

variable {s t : State} {f g : HeaderField}

/-- The two bytes of one field lie below those of any other or above them. -/
theorem offset_disjoint (h : f ≠ g) : f.offset + 2 ≤ g.offset ∨ g.offset + 2 ≤ f.offset := by
  revert h
  cases f <;> cases g <;> decide

/-- Every field but the CRC field, which is the last, lies in bytes 0 to 9. -/
theorem offset_add_two_le (h : f ≠ .crc) : f.offset + 2 ≤ 10 := by
  have hdisjoint := offset_disjoint h
  have hle : f.offset ≤ 10 := offset_le f
  rw [offset_crc] at hdisjoint
  omega

/-- A field's first byte is the high byte of the value written (20_memory.md R61). -/
theorem byteAt_setField_offset (s : State) (f : HeaderField) (v : Half) :
    (s.setField f v).byteAt f.offset = v.extractLsb' 8 8 := by
  rw [byteAt_setField, if_neg (Nat.succ_ne_self _).symm, if_pos rfl, highByte]

/-- A field's second byte is the low byte of the value written. -/
theorem byteAt_setField_offset_succ (s : State) (f : HeaderField) (v : Half) :
    (s.setField f v).byteAt (f.offset + 1) = v.extractLsb' 0 8 := by
  rw [byteAt_setField, if_pos rfl, lowByte]

theorem getField_setField (s : State) (f : HeaderField) (v : Half) : (s.setField f v).getField f = v :=
  memRead16_memWrite16 s f.offset v

theorem getField_setField_of_ne (s : State) (v : Half) (h : f ≠ g) : (s.setField g v).getField f = s.getField f :=
  memRead16_memWrite16_disjoint s v (offset_disjoint h)

/-- A field of 40_header.md R115 reads the same in two states that agree on bytes 0 to 9. -/
theorem getField_congr_of_lt_ten (hf : f ≠ .crc) (h : ∀ x < 10, t.byteAt x = s.byteAt x) :
    t.getField f = s.getField f := by
  have hle : f.offset + 2 ≤ 10 := offset_add_two_le hf
  exact memRead16_congr (h _ (by omega)) (h _ (by omega))

end Sys2Proof.Machine
end

section
/-!
The effect of each header command (40_header.md R100, R101, R114).
-/

namespace Sys2Proof.Machine

open Sys2Proof.Spec

variable {s : State}

/-- A new RESULT is no other change. -/
theorem answersOnly_respond (s : State) (v : Half) : s.AnswersOnly (s.respond v) v :=
  ⟨rfl, fun _ => rfl, rfl, rfl, rfl, rfl, rfl, rfl⟩

/-- `SET_<field>` stores the high byte at the field's offset and the low byte after it, and writes RESULT. -/
theorem storesField_setCommand (f : HeaderField) (v : Half) : StoresField (setCommand f v) f.offset v :=
  fun s hs => ⟨_, exec_setCommand hs f v, byteAt_setField_offset s f v, byteAt_setField_offset_succ s f v, rfl,
    sameBytesOutside_setField s f v, rfl, rfl, rfl, rfl, rfl, rfl⟩

/-- `GET_<field>` answers the two bytes at the field's offset and changes nothing else. -/
theorem readsField_getCommand (f : HeaderField) : ReadsField (getCommand f) f.offset := by
  intro s hs
  obtain ⟨hresult, hbytes, hregs⟩ := answersOnly_respond s (s.getField f)
  exact ⟨_, exec_getCommand hs f, (congrArg BitVec.toNat hresult).trans (memRead16_toNat s f.offset), hbytes, hregs⟩

/-- Where a field holds `v`, its `GET_` command answers `v`. -/
theorem getCommand_completes {f : HeaderField} {v : Half} (hs : s.InService) (h : s.getField f = v) :
    Completes (getCommand f) s (·.result = v) :=
  ⟨_, exec_getCommand hs f, h⟩

/-- Version as a number once the field is written. -/
theorem versionNumber_setField_version (s : State) (v : Half) : versionNumber (s.setField .version v) = v.toNat := by
  rw [← version_toNat, version_setField_version]

end Sys2Proof.Machine
end

section
/-!
A sequence of `SET_` commands issued from outside (20_memory.md R71, 40_header.md R115): it writes its fields one after
the other, and each field holds its value in the end, whatever the order.
-/

namespace Sys2Proof.Machine

open Sys2Proof.Spec

variable {s : State}

/-! ### Issuing commands -/

/-- In service, presenting the word of a well-formed command executes it. -/
theorem issue_of_wf {i : Instr} (hs : s.InService) (hi : i.wf = true) : s.issue i = exec i s :=
  step_executed rfl hs (decode_encode hi)

/-- When the first command has a next state, the others are issued from there. -/
theorem issueAll_cons_of_next {t : State} {i : Instr} (rest : List Instr) (h : s.issue i = .next t) :
    s.issueAll (i :: rest) = t.issueAll rest := by
  rw [State.issueAll, h]

theorem setCommand_wf (f : HeaderField) (v : Half) : (setCommand f v).wf = true := by
  cases f <;> rfl

/-! ### Writing fields in order -/

/-- The state after the fields given were written in order, each by its `SET_` command. -/
def State.setFields (s : State) : List (HeaderField × Half) → State
  | [] => s
  | (f, v) :: rest => ((s.setField f v).respond 0#16).setFields rest

/-- The `SET_` commands of the fields given, with their values. -/
def setCommands (writes : List (HeaderField × Half)) : List Instr := writes.map fun w => setCommand w.1 w.2

theorem issueAll_setCommands (hs : s.InService) (writes : List (HeaderField × Half)) :
    s.issueAll (setCommands writes) = .next (s.setFields writes) := by
  induction writes generalizing s with
  | nil => rfl
  | cons w rest ih =>
    obtain ⟨f, v⟩ := w
    have hfirst : s.issue (setCommand f v) = .next ((s.setField f v).respond 0#16) :=
      (issue_of_wf hs (setCommand_wf f v)).trans (exec_setCommand hs f v)
    exact (issueAll_cons_of_next _ hfirst).trans (ih hs)

/-- A field that is not written keeps its value. -/
theorem getField_setFields_of_notMem {f : HeaderField} {writes : List (HeaderField × Half)}
    (h : f ∉ writes.map Prod.fst) : (s.setFields writes).getField f = s.getField f := by
  induction writes generalizing s with
  | nil => rfl
  | cons w rest ih =>
    obtain ⟨g, v⟩ := w
    exact (ih (List.not_mem_of_not_mem_cons h)).trans (getField_setField_of_ne s v (List.ne_of_not_mem_cons h))

/-- When no field is written twice, each field written holds its value: the writes after its own leave it alone. -/
theorem getField_setFields_of_mem {f : HeaderField} {v : Half} {writes : List (HeaderField × Half)}
    (hnodup : (writes.map Prod.fst).Nodup) (h : (f, v) ∈ writes) : (s.setFields writes).getField f = v := by
  induction writes generalizing s with
  | nil => exact absurd h List.not_mem_nil
  | cons w rest ih =>
    obtain ⟨hnotMem, hrest⟩ := List.nodup_cons.1 hnodup
    rcases List.mem_cons.1 h with rfl | hmem
    · exact (getField_setFields_of_notMem hnotMem).trans (getField_setField s f v)
    · exact ih hrest hmem

/-! ### The five fields of 40_header.md R115 -/

/-- The fields of 40_header.md R115 with their values, in the order of their offsets. -/
def headerWrites (d n v a t : Half) : List (HeaderField × Half) :=
  [(.deviceId, d), (.networkId, n), (.version, v), (.alerts, a), (.type, t)]

theorem headerWrites_nodup (d n v a t : Half) : ((headerWrites d n v a t).map Prod.fst).Nodup := by
  simp [headerWrites]

theorem ne_crc_of_mem_headerWrites {d n v a t : Half} : ∀ w ∈ headerWrites d n v a t, w.1 ≠ .crc := by
  simp [headerWrites]

/-- A reordering of the `SET_` commands of the fields given is the `SET_` commands of a reordering of the fields. -/
theorem exists_setCommands_of_perm {l : List Instr} {writes : List (HeaderField × Half)}
    (h : l.Perm (setCommands writes)) : ∃ writes', l = setCommands writes' ∧ writes'.Perm writes :=
  (congrFun₂ (List.eq_map_comp_perm fun w : HeaderField × Half => setCommand w.1 w.2) l writes).mpr h

/-- Issuing the `SET_` commands of different fields in any order leaves each field at its value. -/
theorem issueAll_perm_setCommands {l : List Instr} {writes : List (HeaderField × Half)} (hs : s.InService)
    (hnodup : (writes.map Prod.fst).Nodup) (h : l.Perm (setCommands writes)) :
    ∃ u, s.issueAll l = .next u ∧ ∀ w ∈ writes, u.getField w.1 = w.2 := by
  obtain ⟨writes', rfl, hperm⟩ := exists_setCommands_of_perm h
  exact ⟨_, issueAll_setCommands hs writes', fun w hmem =>
    getField_setFields_of_mem ((hperm.map Prod.fst).nodup_iff.2 hnodup) (hperm.mem_iff.2 hmem)⟩

/-! ### The commands that leave bytes 0 to 9 alone -/

/-- A command other than the seven of 40_header.md R115 writes at 10 and above only: the CRC field, or a word at the
effective cursor, which is past the header. -/
theorem ten_le_of_mem_bytesWritten {i : Instr} {x : Nat} (hp : s.params.Consistent) (hi : canChangeHeader i = false)
    (hx : x ∈ bytesWritten i s) : 10 ≤ x := by
  have hcrc : x ∈ [10, 11] → 10 ≤ x := fun h => by
    simp only [List.mem_cons, List.not_mem_nil, or_false] at h
    omega
  cases i with
  | reset | setDeviceId | setNetworkId | setVersion | setAlerts | setType | bufWrite => exact nomatch hi
  | getDeviceId | getNetworkId | getVersion | getAlerts | getType | getCrc | headerLen | readU16 | skip | remaining
  | setLength | getLength | rewind | crcIsValid | bufRead => exact absurd hx List.not_mem_nil
  | setCrc v => exact hcrc hx
  | updateCrc =>
    rw [bytesWritten] at hx
    split at hx
    · exact hcrc hx
    · exact absurd hx List.not_mem_nil
  | writeU16 v =>
    have hhl : 10 ≤ s.headerLen := (headerLen_bounds hp).1
    have heff : s.headerLen ≤ s.effPtr := headerLen_le_effPtr s
    simp only [bytesWritten, List.mem_cons, List.not_mem_nil, or_false] at hx
    omega

/-- Such a command leaves bytes 0 to 9 as they are, whether it completes, faults or is refused. -/
theorem exec_sameBytes_lt_ten {i : Instr} (hp : s.params.Consistent) (hi : canChangeHeader i = false) :
    Ensures (exec i s) fun t => ∀ x < 10, t.byteAt x = s.byteAt x := by
  intro t h x hx
  obtain ⟨_, hbytes⟩ := exec_changesOnly s i t h
  exact hbytes x fun hmem => absurd (ten_le_of_mem_bytesWritten hp hi hmem) (Nat.not_le.2 hx)

end Sys2Proof.Machine
end

section
/-!
The statements of 40_header.md.
-/

namespace Sys2Proof.Proofs

open Sys2Proof.Machine Sys2Proof.Spec

/-- Settles O20: the twelve commands are the set and the get of the six fields at their offsets. -/
theorem fieldCommandsAreDirect : Obligations.FieldCommandsAreDirect :=
  ⟨storesField_setCommand .deviceId, storesField_setCommand .networkId, storesField_setCommand .version,
    storesField_setCommand .alerts, storesField_setCommand .type, storesField_setCommand .crc,
    readsField_getCommand .deviceId, readsField_getCommand .networkId, readsField_getCommand .version,
    readsField_getCommand .alerts, readsField_getCommand .type, readsField_getCommand .crc⟩

/-- Settles O21: `RESET` writes the two registers, then Version as `SET_VERSION` does. -/
theorem resetCommandEffect : Obligations.ResetCommandEffect :=
  fun _ hs => ⟨_, exec_reset hs, rfl, rfl, rfl, versionNumber_setField_version _ _,
    byteAt_setField_offset _ .version _, byteAt_setField_offset_succ _ .version _,
    sameBytesOutside_setField _ .version _, rfl, rfl, rfl, rfl⟩

/-- Settles O24: the `SET_` commands of different fields write different bytes, the five `GET_` commands read bytes 0 to
9 only, and every command outside the seven writes at 10 and above. -/
theorem headerRoundTrip : Obligations.HeaderRoundTrip := by
  refine ⟨fun s d n v a t l hs hl => ?_, fun i s t hp hi h => exec_sameBytes_lt_ten hp hi t h,
    fun s t h x _ h4 h5 => ?_⟩
  · obtain ⟨u, hu, hfields⟩ :=
      issueAll_perm_setCommands (writes := headerWrites d n v a t) hs (headerWrites_nodup d n v a t) hl
    refine ⟨u, hu, fun u' hu' hbytes => ?_⟩
    have hget : ∀ w ∈ headerWrites d n v a t, Completes (getCommand w.1) u' (·.result = w.2) := fun w hw =>
      getCommand_completes hu' ((getField_congr_of_lt_ten (ne_crc_of_mem_headerWrites w hw) hbytes).trans (hfields w hw))
    simpa [headerWrites, getCommand] using hget
  · obtain ⟨_, hbytes⟩ := execReset_changesOnly s t h
    exact hbytes x (by simp [h4, h5])

/-- Settles O23: `HEADER_LEN` writes RESULT only, and the model's header length is the one of R14. -/
theorem headerLenAnswersTenOrTwelve : Obligations.HeaderLenAnswersTenOrTwelve := by
  intro s hs
  have hanswer : s.AnswersOnly (s.respond (ofCount s.headerLen)) (ofCount s.headerLen) := answersOnly_respond s _
  refine ⟨_, exec_headerLen hs, headerLen_eq_headerBytes s ▸ hanswer, fun hp => ?_⟩
  have hvalue : ofCount s.headerLen = if versionNumber s < 2 then 10#16 else 12#16 := by
    rw [headerLen_of_fromSource hp, version_toNat, apply_ite ofCount]
    rfl
  exact hvalue ▸ hanswer

end Sys2Proof.Proofs
end

section
/-!
The cursor, length and buffer commands (41_cursor.md): the values they answer as numbers, and what each makes of BUF and
the registers.
-/

namespace Sys2Proof.Machine

open Sys2Proof.Spec

variable {s : State}

/-! ### RESULT as a number (00_scope.md R11) -/

theorem toNat_ofCount {n : Nat} (hn : n < 2 ^ 16) : (ofCount n).toNat = n := by
  rw [ofCount, BitVec.toNat_ofNat, Nat.mod_eq_of_lt hn]

theorem toNat_ofByte (b : Byte) : (ofByte b).toNat = b.toNat :=
  BitVec.toNat_setWidth_of_le (by decide)

/-- A number in the range of 16-bit two's complement is what RESULT reads as (41_cursor.md R145). -/
theorem toInt_ofInteger {z : Int} (hlo : -2 ^ 15 ≤ z) (hhi : z < 2 ^ 15) : (ofInteger z).toInt = z :=
  BitVec.toInt_ofInt_eq_self (by decide) hlo hhi

/-! ### LEN after a `WRITE_U16` (41_cursor.md R131) -/

theorem lenUpd_eq_ite (mode : Config.LenOnWrite) (len np : Nat) :
    lenUpd mode len np = if mode = .max then max len np else np := by
  cases mode <;> rfl

/-- Where the word ends at or past LEN, the two readings agree. -/
theorem lenUpd_of_le (mode : Config.LenOnWrite) {len np : Nat} (h : len ≤ np) : lenUpd mode len np = np :=
  le_antisymm (lenUpd_le h le_rfl) (le_lenUpd mode len np)

/-! ### A store at a cursor -/

/-- The first of the two bytes is the high byte of the value written (20_memory.md R61). -/
theorem byteAt_memWrite16_first (s : State) (a : Nat) (v : Half) : (s.memWrite16 a v).byteAt a = v.extractLsb' 8 8 := by
  rw [byteAt_memWrite16, if_neg (Nat.succ_ne_self a).symm, if_pos rfl, highByte]

/-- The second is the low byte. -/
theorem byteAt_memWrite16_second (s : State) (a : Nat) (v : Half) :
    (s.memWrite16 a v).byteAt (a + 1) = v.extractLsb' 0 8 := by
  rw [byteAt_memWrite16, if_pos rfl, lowByte]

theorem sameBytesOutside_setByte (s : State) (a : Nat) (b : Byte) : s.SameBytesOutside (s.setByte a b) a 1 := by
  intro x hx
  rw [byteAt_setByte, if_neg (by omega)]

/-! ### Range faults (41_cursor.md R130, R162) -/

/-- A `WRITE_U16` whose word does not fit after the effective cursor records CURSOR_OVERRUN and does nothing else. -/
theorem exec_writeU16_overrun (hs : s.InService) (v : Half) (h : s.params.bufSize < s.effPtr + 2) :
    exec (.writeU16 v) s = .next { s with status := 0x0021#16 } := by
  change execWriteU16 v s = _
  rw [execWriteU16, unlessFaulted_of_inService hs, faultIf_eq, if_pos (decide_eq_true h), State.withFault,
    faultStatus_cursorOverrun]

/-- A `BUF_READ` at or past LEN records VIEW_RANGE and answers nothing. -/
theorem exec_bufRead_outside (hs : s.InService) {i : Nat} (h : s.len ≤ i) :
    exec (.bufRead i) s = .next (s.withFault .viewRange) := by
  change execBufRead i s = _
  rw [execBufRead, unlessFaulted_of_inService hs, if_pos h, raise_eq]

end Sys2Proof.Machine
end

section
/-!
Reading the packet out with `BUF_READ` (41_cursor.md R165, 20_memory.md R69).
-/

namespace Sys2Proof.Machine

variable {s : State}

/-- Asking a well-formed command answers the RESULT it leaves. -/
theorem ask_of_exec {t : State} {i : Instr} (hs : s.InService) (hi : i.wf = true) (h : exec i s = .next t) :
    s.ask i = some (t.result, t) := by
  rw [State.ask, issue_of_wf hs hi, h]
  rfl

theorem ask_bufRead {i : Nat} (hs : s.InService) (hi : i < 2 ^ 8) (hl : i < s.len) (hb : i < s.params.bufSize) :
    s.ask (.bufRead i) = some (ofByte (s.byteAt i), s.respond (ofByte (s.byteAt i))) :=
  ask_of_exec (i := .bufRead i) hs ((indexFits_iff i).2 hi) (exec_bufRead hs hl hb)

/-- Reading out `m` bytes from index `i` on answers them in address order and writes RESULT only. -/
theorem readOut_eq_some (hs : s.InService) {i m : Nat} (h8 : i + m ≤ 2 ^ 8) (hl : i + m ≤ s.len)
    (hb : i + m ≤ s.params.bufSize) :
    ∃ r, State.readOut i m s = some ((List.range' i m).map fun a => ofByte (s.byteAt a), s.respond r) := by
  induction m generalizing i s with
  | zero => exact ⟨s.result, rfl⟩
  | succ m ih =>
    have hfirst := ask_bufRead (i := i) hs (by omega) (by omega) (by omega)
    obtain ⟨r, hrest⟩ : ∃ r, State.readOut (i + 1) m (s.respond (ofByte (s.byteAt i))) =
        some ((List.range' (i + 1) m).map fun a => ofByte (s.byteAt a), s.respond r) :=
      ih (s := s.respond (ofByte (s.byteAt i))) (i := i + 1) hs (by omega) (by rw [respond_len]; omega)
        (by rw [respond_params]; omega)
    refine ⟨r, ?_⟩
    simp only [State.readOut, hfirst, Option.bind_some, hrest, Option.map_some, List.range'_succ, List.map_cons]

end Sys2Proof.Machine
end

section
/-!
Building a packet after `RESET` (41_cursor.md R166): LEN and PTR as a function of the number of words written so far, kept
by every `WRITE_U16` that fits and by every field command that leaves Version alone.
-/

namespace Sys2Proof.Machine

open Sys2Proof.Spec

variable {s t : State} {p : Config.Params} {hdr n : Nat}

/-! ### Which commands keep the header length -/

/-- Version lies below the header length, so a state with the same header region has the same header length. -/
theorem headerLen_of_sameHeaderRegion (hp : s.params.Consistent) (hparams : t.params = s.params)
    (hregion : s.SameHeaderRegion t) : t.headerLen = s.headerLen := by
  have hhl : 10 ≤ s.headerLen := (headerLen_bounds hp).1
  exact headerLen_congr hparams (version_congr (hregion 4 (by omega)) (hregion 5 (by omega)))

/-- A command outside the list of 10_state.md R41 keeps the header length, whether it completes, faults or is refused. -/
theorem exec_headerLen_eq {i : Instr} (hp : s.params.Consistent) (hi : canWriteHeaderRegion i = false) :
    Ensures (exec i s) (·.headerLen = s.headerLen) :=
  fun t ht => headerLen_of_sameHeaderRegion hp (exec_params i s t ht) (exec_sameHeaderRegion hi t ht)

/-- Writing another field than Version keeps the header length. -/
theorem headerLen_setField_of_ne {f : HeaderField} (hf : f ≠ .version) (v : Half) :
    (s.setField f v).headerLen = s.headerLen :=
  headerLen_congr rfl (getField_setField_of_ne s v hf.symm)

/-! ### Field commands as sets and gets of fields -/

/-- A field command of 41_cursor.md R166 sets a field other than Version or gets a field. -/
theorem isFieldCommand_cases {i : Instr} (hi : isFieldCommand i = true) :
    (∃ f v, f ≠ .version ∧ i = setCommand f v) ∨ ∃ f, i = getCommand f := by
  cases i with
  | setDeviceId v => exact .inl ⟨.deviceId, v, by decide, rfl⟩
  | setNetworkId v => exact .inl ⟨.networkId, v, by decide, rfl⟩
  | setAlerts v => exact .inl ⟨.alerts, v, by decide, rfl⟩
  | setType v => exact .inl ⟨.type, v, by decide, rfl⟩
  | setCrc v => exact .inl ⟨.crc, v, by decide, rfl⟩
  | getDeviceId => exact .inr ⟨.deviceId, rfl⟩
  | getNetworkId => exact .inr ⟨.networkId, rfl⟩
  | getVersion => exact .inr ⟨.version, rfl⟩
  | getAlerts => exact .inr ⟨.alerts, rfl⟩
  | getType => exact .inr ⟨.type, rfl⟩
  | getCrc => exact .inr ⟨.crc, rfl⟩
  | reset | setVersion | headerLen | writeU16 | readU16 | skip | remaining | setLength | getLength | rewind | updateCrc
  | crcIsValid | bufWrite | bufRead => exact nomatch hi

theorem isWrite_cases {i : Instr} (hi : isWrite i = true) : ∃ v, i = .writeU16 v := by
  cases i with
  | writeU16 v => exact ⟨v, rfl⟩
  | reset | setDeviceId | getDeviceId | setNetworkId | getNetworkId | setVersion | getVersion | setAlerts | getAlerts
  | setType | getType | setCrc | getCrc | headerLen | readU16 | skip | remaining | setLength | getLength | rewind
  | updateCrc | crcIsValid | bufWrite | bufRead => exact nomatch hi

theorem getCommand_wf (f : HeaderField) : (getCommand f).wf = true := by
  cases f <;> rfl

theorem isWrite_setCommand (f : HeaderField) (v : Half) : isWrite (setCommand f v) = false := by
  cases f <;> rfl

theorem isWrite_getCommand (f : HeaderField) : isWrite (getCommand f) = false := by
  cases f <;> rfl

/-! ### The packet after `n` words -/

/-- `n` words were written since `RESET`, at parameters `p` and header length `hdr`: PTR and LEN stand together, at the end
of the last word, or at 0 before the first one (40_header.md R100, 41_cursor.md R166). -/
structure State.Building (p : Config.Params) (hdr n : Nat) (s : State) : Prop where
  inService : s.InService
  params_eq : s.params = p
  headerLen_eq : s.headerLen = hdr
  ptr_eq_len : s.ptr = s.len
  len_eq : s.len = if n = 0 then 0 else hdr + 2 * n

/-- The next word goes after the last one; the first word, by the snap, after the header. -/
theorem State.Building.effPtr_eq (hb : s.Building p hdr n) : s.effPtr = hdr + 2 * n := by
  rw [State.effPtr, hb.ptr_eq_len, hb.len_eq, hb.headerLen_eq]
  split <;> omega

theorem State.Building.congr (hb : s.Building p hdr n) (hregs : s.SameRegisters t) (hhl : t.headerLen = s.headerLen) :
    t.Building p hdr n := by
  obtain ⟨hptr, hlen, hstatus, _, _, hparams⟩ := hregs
  exact
    { inService := (faulted_congr hstatus).trans hb.inService
      params_eq := hparams.trans hb.params_eq
      headerLen_eq := hhl.trans hb.headerLen_eq
      ptr_eq_len := by rw [hptr, hlen, hb.ptr_eq_len]
      len_eq := hlen.trans hb.len_eq }

/-- `RESET` starts a packet with no word. -/
theorem building_of_reset (hs : s.InService) (hreset : exec .reset s = .next t) : t.Building s.params t.headerLen 0 := by
  rw [exec_reset hs] at hreset
  cases hreset
  exact ⟨hs, rfl, rfl, rfl, rfl⟩

/-- A `WRITE_U16` that fits adds a word, by either reading of `LEN_ON_WRITE`. -/
theorem State.Building.exec_writeU16 (hb : s.Building p hdr n) (hp : p.Consistent) (hfit : hdr + 2 * (n + 1) ≤ p.bufSize)
    (v : Half) : ∃ t, exec (.writeU16 v) s = .next t ∧ t.Building p hdr (n + 1) := by
  obtain ⟨hs, rfl, hhl, hptr, hlen⟩ := hb
  have heff : s.effPtr = hdr + 2 * n := State.Building.effPtr_eq ⟨hs, rfl, hhl, hptr, hlen⟩
  have hend : s.effPtr + 2 = hdr + 2 * (n + 1) := by omega
  have hle : s.len ≤ s.effPtr + 2 := by rw [← hptr]; exact (ptr_le_effPtr s).trans (Nat.le_add_right _ 2)
  have hexec := Machine.exec_writeU16 hs v (hend.le.trans hfit)
  refine ⟨_, hexec, hs, rfl, (exec_headerLen_eq hp rfl _ hexec).trans hhl, (lenUpd_of_le _ hle).symm, ?_⟩
  exact (lenUpd_of_le _ hle).trans hend

/-- A field command that leaves Version alone changes neither registers nor header length. -/
theorem State.Building.exec_setCommand (hb : s.Building p hdr n) {f : HeaderField} (hf : f ≠ .version) (v : Half) :
    ∃ t, exec (setCommand f v) s = .next t ∧ t.Building p hdr n :=
  ⟨_, Machine.exec_setCommand hb.inService f v, hb.congr ⟨rfl, rfl, rfl, rfl, rfl, rfl⟩
    ((headerLen_respond _ _).trans (headerLen_setField_of_ne hf v))⟩

theorem State.Building.exec_getCommand (hb : s.Building p hdr n) (f : HeaderField) :
    ∃ t, exec (getCommand f) s = .next t ∧ t.Building p hdr n :=
  ⟨_, Machine.exec_getCommand hb.inService f, hb.congr ⟨rfl, rfl, rfl, rfl, rfl, rfl⟩ (headerLen_respond s _)⟩

/-- One command: a word that fits, or a field command, which adds none. -/
theorem State.Building.issue (hb : s.Building p hdr n) (hp : p.Consistent) {i : Instr}
    (hi : isWrite i = true ∨ isFieldCommand i = true) (hfit : hdr + 2 * (n + [i].countP isWrite) ≤ p.bufSize) :
    ∃ t, s.issue i = .next t ∧ t.Building p hdr (n + [i].countP isWrite) := by
  obtain hw | hf := hi
  · obtain ⟨v, rfl⟩ := isWrite_cases hw
    rw [issue_of_wf hb.inService rfl]
    exact hb.exec_writeU16 hp hfit v
  · obtain ⟨f, v, hne, rfl⟩ | ⟨f, rfl⟩ := isFieldCommand_cases hf
    · rw [issue_of_wf hb.inService (setCommand_wf f v), List.countP_singleton, isWrite_setCommand]
      exact hb.exec_setCommand hne v
    · rw [issue_of_wf hb.inService (getCommand_wf f), List.countP_singleton, isWrite_getCommand]
      exact hb.exec_getCommand f

/-- Any number of them in any order: LEN and PTR depend on the number of words only. -/
theorem State.Building.issueAll (hb : s.Building p hdr n) (hp : p.Consistent) {l : List Instr}
    (hl : ∀ i ∈ l, isWrite i = true ∨ isFieldCommand i = true) (hfit : hdr + 2 * (n + l.countP isWrite) ≤ p.bufSize) :
    ∃ t, s.issueAll l = .next t ∧ t.Building p hdr (n + l.countP isWrite) := by
  induction l generalizing s n with
  | nil => exact ⟨s, rfl, hb⟩
  | cons i rest ih =>
    have hcount : n + (i :: rest).countP isWrite = n + [i].countP isWrite + rest.countP isWrite := by
      rw [← List.singleton_append, List.countP_append, Nat.add_assoc]
    rw [hcount] at hfit ⊢
    obtain ⟨u, hu, hbu⟩ := hb.issue hp (hl i List.mem_cons_self) (by omega)
    obtain ⟨t, ht, hbt⟩ := ih hbu (fun j hj => hl j (List.mem_cons_of_mem i hj)) hfit
    exact ⟨t, (issueAll_cons_of_next rest hu).trans ht, hbt⟩

end Sys2Proof.Machine
end

section
/-!
The statements of 41_cursor.md.
-/

namespace Sys2Proof.Proofs

open Sys2Proof.Machine Sys2Proof.Spec

/-- Settles O26: the word is stored at the effective cursor, and where it ends at or past LEN the two readings of
`LEN_ON_WRITE` agree. -/
theorem writeU16StoresAtTheCursor : Obligations.WriteU16StoresAtTheCursor :=
  fun s v hs hfit => ⟨_, exec_writeU16 hs v hfit, byteAt_memWrite16_first s _ v, byteAt_memWrite16_second s _ v,
    sameBytesOutside_memWrite16 s _ v, rfl, lenUpd_eq_ite _ _ _, lenUpd_of_le _, rfl, rfl, rfl, rfl, rfl⟩

/-- Settles O29: LEN and PTR lie in BUF, whose size is below 2^15, so RESULT holds their difference without wrapping. -/
theorem remainingIsTheSignedDifference : Obligations.RemainingIsTheSignedDifference := by
  intro s hsize hs hptr hlen
  have hvalue : (ofInteger ((s.len : Int) - (s.ptr : Int))).toInt = (s.len : Int) - (s.ptr : Int) :=
    toInt_ofInteger (by omega) (by omega)
  exact ⟨_, exec_remaining hs, hvalue, le_trans (by omega) hvalue.ge, hvalue.le.trans (by omega),
    (answersOnly_respond s _).2⟩

/-- Settles O35: reading out goes up the addresses, each index inside the packet, and an index outside faults. -/
theorem packetImageIsReadOut : Obligations.PacketImageIsReadOut := by
  refine fun s hs h256 hsize => ⟨?_, fun i hi => ⟨_, exec_bufRead_outside hs hi, rfl, faulted_withFault s _⟩⟩
  obtain ⟨r, hread⟩ := readOut_eq_some (i := 0) (m := s.len) hs (by omega) (by omega) (by omega)
  rw [← List.range_eq_range'] at hread
  exact ⟨_, hread, fun _ => rfl, rfl, rfl, hs⟩

/-- Settles O36: by induction on the commands, PTR and LEN stand at the end of the last word written. -/
theorem payloadLengthFromWrites : Obligations.PayloadLengthFromWrites := by
  intro s₀ s l hp hs₀ hreset hl hpos hfit
  have hstart : s.Building s₀.params s.headerLen 0 := building_of_reset hs₀ hreset
  rw [hstart.params_eq] at hfit ⊢
  obtain ⟨t, hrun, hend⟩ := hstart.issueAll hp hl (by omega)
  rw [Nat.zero_add] at hend
  refine ⟨t, hrun, hend.inService, by rw [hend.len_eq, if_neg hpos.ne'], hend.ptr_eq_len, fun hfull v => ?_⟩
  exact exec_writeU16_overrun hend.inService v (by rw [hend.effPtr_eq, hend.params_eq]; exact hfull)

/-- Settles O27: the word read does not depend on LEN. -/
theorem readU16ReadsAtTheCursor : Obligations.ReadU16ReadsAtTheCursor :=
  fun s hs hfit => ⟨_, exec_readU16 hs hfit, memRead16_toNat s s.effPtr, rfl, rfl, fun _ => rfl, rfl, rfl, rfl, rfl⟩

/-- Settles O28: past the range check only PTR and RESULT are written. -/
theorem skipMovesTheCursor : Obligations.SkipMovesTheCursor :=
  fun _ _ hs hfit => ⟨_, exec_skip hs hfit, rfl, rfl, rfl, fun _ => rfl, rfl, rfl, rfl, rfl⟩

/-- Settles O30: past the range check only LEN, PTR and RESULT are written. -/
theorem setLengthClampsTheCursor : Obligations.SetLengthClampsTheCursor :=
  fun _ _ hs hn => ⟨_, exec_setLength hs hn, rfl, rfl, rfl, fun _ => rfl, rfl, rfl, rfl, rfl⟩

/-- Settles O31: RESULT holds LEN, which fits in it, and nothing else is written. -/
theorem getLengthAnswersLen : Obligations.GetLengthAnswersLen :=
  fun s hs hlen => ⟨_, exec_getLength hs, toNat_ofCount hlen, (answersOnly_respond s _).2⟩

/-- Settles O32: the model's header length is the one of 00_scope.md R14, by bytes 4 and 5. -/
theorem rewindGoesToTheHeaderEnd : Obligations.RewindGoesToTheHeaderEnd :=
  fun s hs => ⟨_, exec_rewind hs, headerLen_eq_headerBytes s, rfl, rfl, fun _ => rfl, rfl, rfl, rfl, rfl⟩

/-- Settles O33: one byte is stored, whatever PTR, LEN and the header length are. -/
theorem bufWriteStoresOneByte : Obligations.BufWriteStoresOneByte :=
  fun s i b hs hi => ⟨_, exec_bufWrite hs b hi, (byteAt_setByte s i i b).trans (if_pos rfl),
    sameBytesOutside_setByte s i b, rfl, rfl, rfl, rfl, rfl, rfl, rfl⟩

/-- Settles O34: RESULT holds the byte at the index, and nothing else is written. -/
theorem bufReadAnswersOneByte : Obligations.BufReadAnswersOneByte :=
  fun s _ hs hl hi => ⟨_, exec_bufRead hs hl hi, toNat_ofByte _, (answersOnly_respond s _).2⟩

end Sys2Proof.Proofs
end

section
/-!
The checksum (42_crc.md R170 to R174): the bytes it is of, and that it tells apart two byte sequences which differ at one
place.
-/

namespace Sys2Proof.Machine

open Sys2Proof.Spec

/-! ### The checksum function -/

section
variable {p : Config.Params}

/-- Different registers stay different under the same bytes. -/
theorem foldl_crcByte_injective {poly : Half} (hp : poly[15] = true) (bytes : List Byte) :
    Function.Injective fun r => bytes.foldl (crcByte poly) r := by
  induction bytes with
  | nil => exact fun _ _ h => h
  | cons b rest ih => exact fun _ _ h => crcByte_injective hp b (ih h)

/-- The register reaches the byte at `i` as it was, the byte drives it apart, and the bytes after it keep it apart. -/
theorem crc16_set_ne (hp : p.crcPoly[15] = true) {bytes : List Byte} {i : Nat} {b : Byte} (hi : i < bytes.length)
    (hb : b ≠ bytes[i]) : crc16 p (bytes.set i b) ≠ crc16 p bytes := by
  have hsplit (c : Byte) : crc16 p (bytes.set i c) =
      (bytes.drop (i + 1)).foldl (crcByte p.crcPoly) (crcByte p.crcPoly (crc16 p (bytes.take i)) c) := by
    rw [List.set_eq_take_append_cons_drop, if_pos hi, crc16, List.foldl_append, List.foldl_cons, crc16]
  intro h
  rw [← List.set_getElem_self hi, List.set_set, hsplit, hsplit] at h
  exact hb (crcByte_byte_injective hp _ (foldl_crcByte_injective hp _ h))

/-- The checksum function reads the polynomial and the seed only, so the OPEN parameters do not matter. -/
theorem crc16_of_fromSource (h : p.FromSource) (bytes : List Byte) :
    crc16 p bytes = crc16 Config.defaultParams bytes := by
  rw [crc16, crc16, crcPoly_of_fromSource h, crcSeed_of_fromSource h,
    crcPoly_of_fromSource defaultParams_fromSource, crcSeed_of_fromSource defaultParams_fromSource]

end

/-! ### The bytes it is of -/

/-- The image of the model's working copy is the one of 42_crc.md R172 and R173. -/
theorem image_setField_sentinel (s : State) : (s.setField .crc s.params.crcSentinel).image = sentinelImage s := by
  rw [State.image, State.span, setField_len, Nat.sub_zero, ← List.range_eq_range', sentinelImage]
  refine List.map_congr_left fun a _ => ?_
  rw [byteAt_setField, offset_crc]
  by_cases h10 : a = 10
  · rw [if_neg (by omega), if_pos h10, if_pos h10, highByte]
  · rw [if_neg h10, if_neg h10, lowByte]

theorem checksum_eq (s : State) : s.checksum = crc16 s.params (sentinelImage s) := by
  rw [State.checksum, image_setField_sentinel]

/-- Bytes 10 and 11 take no part in the checksum. -/
theorem checksum_setField_crc (s : State) (v : Half) : (s.setField .crc v).checksum = s.checksum := by
  refine checksum_congr rfl rfl fun x _ h10 h11 => ?_
  rw [byteAt_setField, offset_crc, if_neg h11, if_neg h10]

theorem checksum_setByte_of_crcField (s : State) {a : Nat} (ha : a = 10 ∨ a = 11) (b : Byte) :
    (s.setByte a b).checksum = s.checksum := by
  refine checksum_congr rfl rfl fun x _ h10 h11 => ?_
  rw [byteAt_setByte, if_neg (by omega)]

/-- A byte written outside the CRC slot is written in the image, too. -/
theorem sentinelImage_setByte (s : State) {a : Nat} (h10 : a ≠ 10) (h11 : a ≠ 11) (b : Byte) :
    sentinelImage (s.setByte a b) = (sentinelImage s).set a b := by
  refine List.ext_getElem (by simp [sentinelImage, State.setByte]) fun x _ _ => ?_
  rw [List.getElem_set]
  by_cases hx : a = x
  · subst hx
    simp [sentinelImage, h10, h11]
  · simp [sentinelImage, hx, Ne.symm hx]

/-- Another byte below LEN and outside the CRC slot makes another checksum. -/
theorem checksum_setByte_ne {s : State} (hp : s.params.crcPoly[15] = true) {a : Nat} {b : Byte} (ha : a < s.len)
    (h10 : a ≠ 10) (h11 : a ≠ 11) (hb : b ≠ s.byteAt a) : (s.setByte a b).checksum ≠ s.checksum := by
  rw [checksum_eq, checksum_eq, sentinelImage_setByte s h10 h11]
  exact crc16_set_ne hp (by simpa [sentinelImage] using ha) (by simpa [sentinelImage, h10, h11] using hb)

/-! ### The CRC field -/

/-- A 16-bit read tells its two bytes. -/
theorem memRead16_eq_iff {s t : State} {a : Nat} :
    t.memRead16 a = s.memRead16 a ↔ t.byteAt a = s.byteAt a ∧ t.byteAt (a + 1) = s.byteAt (a + 1) := by
  refine ⟨fun h => ⟨?_, ?_⟩, fun ⟨h0, h1⟩ => memRead16_congr h0 h1⟩
  · rw [← highByte_joinBytes (t.byteAt a) (t.byteAt (a + 1)), ← highByte_joinBytes (s.byteAt a) (s.byteAt (a + 1))]
    exact congrArg highByte h
  · rw [← lowByte_joinBytes (t.byteAt a) (t.byteAt (a + 1)), ← lowByte_joinBytes (s.byteAt a) (s.byteAt (a + 1))]
    exact congrArg lowByte h

/-- A byte written elsewhere leaves a 16-bit read alone. -/
theorem memRead16_setByte_of_ne (s : State) {a x : Nat} (h0 : a ≠ x) (h1 : a ≠ x + 1) (b : Byte) :
    (s.setByte a b).memRead16 x = s.memRead16 x :=
  memRead16_congr (by rw [byteAt_setByte, if_neg h0.symm]) (by rw [byteAt_setByte, if_neg h1.symm])

theorem getField_crc_setByte_ne {s : State} {a : Nat} {b : Byte} (ha : a = 10 ∨ a = 11) (hb : b ≠ s.byteAt a) :
    (s.setByte a b).getField .crc ≠ s.getField .crc := by
  intro h
  obtain ⟨hhigh, hlow⟩ := memRead16_eq_iff.1 h
  rw [byteAt_setByte] at hhigh hlow
  obtain rfl | rfl := ha
  · exact hb hhigh
  · exact hb hlow

/-- What the CRC field holds as a number (42_crc.md R180). -/
theorem checksum_eq_getField_crc_iff (s : State) : s.checksum = s.getField .crc ↔
    (crc16 s.params (sentinelImage s)).toNat = bigEndian (s.byteAt 10) (s.byteAt 11) := by
  rw [← checksum_eq, ← BitVec.toNat_inj]
  exact Eq.congr_right (memRead16_toNat s 10)

/-! ### The version gate -/

theorem carriesCrc_congr {s t : State} (hp : t.params = s.params) (hv : t.version = s.version) :
    CarriesCrc t ↔ CarriesCrc s := by
  rw [← hasCrc_iff, ← hasCrc_iff, hasCrc_congr hp hv]

/-- Only a write at byte 4 or 5 can change whether Version carries a CRC. -/
theorem carriesCrc_setByte_iff (s : State) {a : Nat} (h4 : a ≠ 4) (h5 : a ≠ 5) (b : Byte) :
    CarriesCrc (s.setByte a b) ↔ CarriesCrc s :=
  carriesCrc_congr rfl (memRead16_setByte_of_ne s h4 h5 b)

end Sys2Proof.Machine
end

section
/-!
What `UPDATE_CRC` and `CRC_IS_VALID` do (42_crc.md R175, R180), by the version gate and by whether the CRC field holds the
checksum.
-/

namespace Sys2Proof.Machine

open Sys2Proof.Spec

variable {s t : State}

/-! ### `UPDATE_CRC` -/

theorem exec_updateCrc_of_carriesCrc (hs : s.InService) (hl : s.len ≤ s.params.bufSize) (hc : CarriesCrc s) :
    exec .updateCrc s = .next ((s.setField .crc s.checksum).respond s.checksum) := by
  rw [exec_updateCrc hs hl, if_pos ((hasCrc_iff s).2 hc)]

theorem exec_updateCrc_of_not_carriesCrc (hs : s.InService) (hl : s.len ≤ s.params.bufSize) (hc : ¬ CarriesCrc s) :
    exec .updateCrc s = .next (s.respond 0#16) := by
  rw [exec_updateCrc hs hl, if_neg (mt (hasCrc_iff s).1 hc)]

/-- After `UPDATE_CRC` at a Version that carries a CRC, the field holds the checksum of the packet as it then is, and LEN,
STATUS, the parameters and the version gate are as before. -/
theorem updateCrc_stamps (hs : s.InService) (hl : s.len ≤ s.params.bufSize) (hc : CarriesCrc s)
    (h : exec .updateCrc s = .next t) :
    t.checksum = t.getField .crc ∧ CarriesCrc t ∧ t.InService ∧ t.len = s.len ∧ t.params = s.params := by
  rw [exec_updateCrc_of_carriesCrc hs hl hc] at h
  cases h
  have hstored : (s.setField .crc s.checksum).checksum = (s.setField .crc s.checksum).getField .crc :=
    (checksum_setField_crc s s.checksum).trans (getField_setField s .crc s.checksum).symm
  have hversion : (s.setField .crc s.checksum).version = s.version :=
    getField_setField_of_ne s s.checksum (f := .version) (by decide)
  have hgate : CarriesCrc (s.setField .crc s.checksum) ↔ CarriesCrc s := carriesCrc_congr rfl hversion
  exact ⟨hstored, hgate.2 hc, hs, rfl, rfl⟩

/-! ### `CRC_IS_VALID` -/

theorem exec_crcIsValid_eq (hs : s.InService) (hl : s.len ≤ s.params.bufSize) : exec .crcIsValid s =
    .next (s.respond (if ¬ CarriesCrc s ∨ s.checksum = s.getField .crc then 1#16 else 0#16)) := by
  rw [exec_crcIsValid hs hl]
  by_cases hc : CarriesCrc s
  · simp [(hasCrc_iff s).2 hc, hc]
  · simp [mt (hasCrc_iff s).1 hc, hc]

theorem crcIsValid_completes_one (hs : s.InService) (hl : s.len ≤ s.params.bufSize)
    (h : ¬ CarriesCrc s ∨ s.checksum = s.getField .crc) : Completes .crcIsValid s (·.result = 1#16) :=
  ⟨_, exec_crcIsValid_eq hs hl, if_pos h⟩

theorem crcIsValid_completes_zero (hs : s.InService) (hl : s.len ≤ s.params.bufSize) (hc : CarriesCrc s)
    (hm : s.checksum ≠ s.getField .crc) : Completes .crcIsValid s (·.result = 0#16) :=
  ⟨_, exec_crcIsValid_eq hs hl, if_neg (not_or.2 ⟨not_not_intro hc, hm⟩)⟩

/-- A new byte of the packet changes the checksum and not the field, a new byte of the field the field and not the
checksum: either way they no longer match. -/
theorem checksum_ne_getField_crc_of_setByte (hp : t.params.crcPoly[15] = true) (hm : t.checksum = t.getField .crc)
    {a : Nat} {b : Byte} (ha : a < t.len ∨ a = 10 ∨ a = 11) (hb : b ≠ t.byteAt a) :
    (t.setByte a b).checksum ≠ (t.setByte a b).getField .crc := by
  by_cases hfield : a = 10 ∨ a = 11
  · rw [checksum_setByte_of_crcField t hfield, hm]
    exact (getField_crc_setByte_ne hfield hb).symm
  · obtain ⟨h10, h11⟩ := not_or.1 hfield
    have hkept : (t.setByte a b).getField .crc = t.getField .crc := memRead16_setByte_of_ne t h10 h11 b
    rw [hkept, ← hm]
    exact checksum_setByte_ne hp (ha.resolve_right hfield) h10 h11 hb

end Sys2Proof.Machine
end

section
/-!
The statements of 42_crc.md.
-/

namespace Sys2Proof.Proofs

open Sys2Proof.Machine Sys2Proof.Spec

/-- Settles O39: by the version gate; the working copy's image is the packet's with the sentinel in the CRC slot. -/
theorem updateCrcStoresTheChecksum : Obligations.UpdateCrcStoresTheChecksum := by
  intro s hs hl
  by_cases hc : CarriesCrc s
  · refine ⟨_, exec_updateCrc_of_carriesCrc hs hl hc, ⟨rfl, rfl, rfl, rfl, rfl, rfl⟩, absurd hc, fun _ => ?_⟩
    rw [← checksum_eq]
    exact ⟨rfl, byteAt_setField_offset s .crc s.checksum, byteAt_setField_offset_succ s .crc s.checksum,
      sameBytesOutside_setField s .crc s.checksum⟩
  · obtain ⟨hresult, hbytes, hregs⟩ := answersOnly_respond s 0#16
    exact ⟨_, exec_updateCrc_of_not_carriesCrc hs hl hc, hregs, fun _ => ⟨hresult, hbytes⟩, fun h => absurd h hc⟩

/-- Settles O40: the two 16-bit values agree exactly when they agree as numbers. -/
theorem crcIsValidComparesTheChecksum : Obligations.CrcIsValidComparesTheChecksum := by
  intro s hs hl
  refine ⟨_, exec_crcIsValid_eq hs hl, ?_⟩
  simp only [checksum_eq_getField_crc_iff]
  exact answersOnly_respond s _

/-- Settles O41: the later state has the same checksum and the same CRC field, which `UPDATE_CRC` made agree. -/
theorem updateThenCheckIsValid : Obligations.UpdateThenCheckIsValid := by
  intro s t t' hs hl hc hupdate hs' hparams hlen hbytes
  obtain ⟨hmatch, _, _, hlen_t, hparams_t⟩ := updateCrc_stamps hs hl hc hupdate
  have hsum : t'.checksum = t.checksum := checksum_congr hparams hlen fun x hx _ _ => hbytes x (.inl hx)
  have hfield : t'.getField .crc = t.getField .crc :=
    memRead16_congr (hbytes 10 (by simp)) (hbytes 11 (by simp))
  refine crcIsValid_completes_one hs' ?_ (.inr (hsum.trans (hmatch.trans hfield.symm)))
  rwa [hlen, hlen_t, hparams, hparams_t]

/-- Settles O42: the change breaks the match of checksum and field, and only a change of byte 4 or 5 can take Version
below the gate. -/
theorem singleByteChangeIsDetected : Obligations.SingleByteChangeIsDetected := by
  intro s t u a b hp hs hl hc hupdate ha hb hwrite
  obtain ⟨hmatch, hct, hst, hlen, hparams⟩ := updateCrc_stamps hs hl hc hupdate
  rw [← hparams] at hp
  rw [← hlen, ← hparams] at hl
  obtain ⟨_, rfl⟩ := bufWrite_inService hst hwrite
  refine ⟨fun hcu => crcIsValid_completes_zero hst hl hcu (checksum_ne_getField_crc_of_setByte hp hmatch ha hb),
    fun hcu => ⟨?_, crcIsValid_completes_one hst hl (.inl hcu)⟩⟩
  by_contra hne
  obtain ⟨h4, h5⟩ := not_or.1 hne
  exact hcu ((carriesCrc_setByte_iff t h4 h5 b).2 hct)

/-- Settles O43: below the version gate both commands write RESULT only. -/
theorem versionOneFramesAlwaysValid : Obligations.VersionOneFramesAlwaysValid :=
  fun s hs hl hc => ⟨crcIsValid_completes_one hs hl (.inl hc), _, exec_updateCrc_of_not_carriesCrc hs hl hc,
    (answersOnly_respond s 0#16).2⟩

/-- Settles O38: the source's polynomial and seed are the default parameters', at which the loop is run. -/
theorem crc16ReferenceValues : Obligations.Crc16ReferenceValues := by
  intro p h
  simp only [crc16_of_fromSource h]
  decide +kernel

end Sys2Proof.Proofs
end

section
/-!
The scans of a packet (45_payload.md R193 to R197): a scan moves the cursor over the whole pairs of the payload and
writes nothing but PTR and RESULT, so each of its states is the packet's with another cursor and another RESULT.
-/

namespace Sys2Proof.Machine

open Sys2Proof.Spec

/-! ### The states of a scan -/

/-- A packet a scan can run on: ZPC is in service and the payload, where there is one, ends inside BUF. -/
structure State.Scannable (s : State) : Prop where
  inService : s.InService
  params : s.params.Consistent
  len_le : s.len ≤ s.params.bufSize

theorem State.Inv.scannable {s : State} (h : s.Inv) (hs : s.InService) : s.Scannable :=
  ⟨hs, h.params, h.len_le⟩

/-- The state with the cursor at `p` and `r` in RESULT. -/
def State.scanAt (s : State) (p : Nat) (r : Half) : State := (s.setPtr p).respond r

section
variable (s : State) (p : Nat) (r : Half)

theorem sameBytes_scanAt : s.SameBytes (s.scanAt p r) := fun _ => rfl

variable {s p}

/-- At or past the header length the cursor does not snap. -/
theorem effPtr_scanAt (hp : s.headerLen ≤ p) : (s.scanAt p r).effPtr = p :=
  effPtr_eq_of_le (s := s.scanAt p r) hp

end

/-! ### The commands of a scan -/

section
variable {s : State} {p : Nat} {r : Half} (h : s.Scannable)
include h

theorem ask_rewind : s.ask .rewind = some (0#16, s.scanAt s.headerLen 0#16) :=
  ask_of_exec h.inService rfl (exec_rewind h.inService)

theorem ask_remaining_scanAt : (s.scanAt p r).ask .remaining =
    some (ofInteger ((s.len : Int) - p), s.scanAt p (ofInteger ((s.len : Int) - p))) :=
  ask_of_exec (s := s.scanAt p r) h.inService rfl (exec_remaining (s := s.scanAt p r) h.inService)

theorem ask_readU16_scanAt (hp : s.headerLen ≤ p) (hfit : p + 2 ≤ s.params.bufSize) :
    (s.scanAt p r).ask .readU16 = some (s.memRead16 p, s.scanAt (p + 2) (s.memRead16 p)) := by
  have hexec := exec_readU16 (s := s.scanAt p r) h.inService (by rwa [effPtr_scanAt r hp])
  rw [effPtr_scanAt r hp] at hexec
  exact ask_of_exec (s := s.scanAt p r) h.inService rfl hexec

theorem ask_skip_scanAt {n : Nat} (hn : n < 2 ^ 16) (hp : s.headerLen ≤ p) (hfit : p + n ≤ s.params.bufSize) :
    (s.scanAt p r).ask (.skip n) = some (0#16, s.scanAt (p + n) 0#16) := by
  have hexec := exec_skip (s := s.scanAt p r) h.inService (n := n) (by rwa [effPtr_scanAt r hp])
  rw [effPtr_scanAt r hp] at hexec
  exact ask_of_exec (s := s.scanAt p r) (i := .skip n) h.inService ((countFits_iff n).2 hn) hexec

/-- The test of both loops: LEN and PTR lie in BUF, so `REMAINING` is their difference (41_cursor.md R145). -/
theorem remaining_lt_four_iff (hp : p ≤ s.params.bufSize) :
    (ofInteger ((s.len : Int) - p)).toInt < 4 ↔ s.len < p + 4 := by
  obtain ⟨_, hsize, _⟩ := h.params
  have hlen := h.len_le
  rw [toInt_ofInteger (by omega) (by omega)]
  omega

end

/-! ### Where the pairs lie -/

section
variable {s : State}

/-- Pair `j` is a whole pair exactly when its four bytes lie below LEN. -/
theorem lt_pairCount_iff {j : Nat} : j < s.pairCount ↔ s.headerLen + 4 * j + 4 ≤ s.len := by
  rw [State.pairCount]
  omega

/-- The whole pairs end inside BUF, also when LEN is below the header length and there are none. -/
theorem pair_start_le (h : s.Scannable) {j : Nat} (hj : j ≤ s.pairCount) :
    s.headerLen + 4 * j ≤ s.params.bufSize := by
  obtain ⟨_, _, hhl⟩ := headerLen_bounds h.params
  have hlen := h.len_le
  rw [State.pairCount] at hj
  omega

/-- A scan's bound is enough: the payload starts at the shorter header length or later (45_payload.md R197). -/
theorem pairCount_lt_scanBound (h : s.Scannable) : s.pairCount < s.scanBound := by
  obtain ⟨_, hhl, _⟩ := headerLen_bounds h.params
  have hlen := h.len_le
  rw [State.pairCount, State.scanBound]
  omega

theorem pairs_eq_map_range' (s : State) : s.pairs = (List.range' 0 s.pairCount).map s.pairAt := by
  rw [State.pairs, List.range_eq_range']

@[simp] theorem pairs_length (s : State) : s.pairs.length = s.pairCount := by
  simp [State.pairs]

theorem pairs_eq_nil (hlen : s.len < s.headerLen + 4) : s.pairs = [] := by
  have hcount : s.pairCount = 0 := by
    rw [State.pairCount]
    omega
  rw [State.pairs, hcount, List.range_zero, List.map_nil]

end

/-! ### One round of a loop -/

section
variable {s t : State} {fuel : Nat} {k left : Half} {out : List (Half × Half)}

theorem allLoop_of_end (hleft : s.ask .remaining = some (left, t)) (hend : left.toInt < 4) :
    State.allLoop (fuel + 1) out s = some (out, t) := by
  simp [State.allLoop, hleft, hend]

theorem findLoop_of_end (hleft : s.ask .remaining = some (left, t)) (hend : left.toInt < 4) :
    State.findLoop k (fuel + 1) s = some (none, t) := by
  simp [State.findLoop, hleft, hend]

variable (h : s.Scannable) {p : Nat} {r : Half} (hp : s.headerLen ≤ p) (hfit : p + 4 ≤ s.len)
include h hp hfit

/-- A round of `ALL()` with four bytes left takes the pair at the cursor. -/
theorem allLoop_of_pair : State.allLoop (fuel + 1) out (s.scanAt p r) =
    State.allLoop fuel (out ++ [(s.memRead16 p, s.memRead16 (p + 2))])
      (s.scanAt (p + 4) (s.memRead16 (p + 2))) := by
  have hlen := h.len_le
  have hmore := mt (remaining_lt_four_iff h (p := p) (by omega)).1 (by omega)
  simp only [State.allLoop, ask_remaining_scanAt h, Option.bind_some, if_neg hmore]
  rw [ask_readU16_scanAt h hp (by omega), Option.bind_some, ask_readU16_scanAt h (by omega) (by omega),
    Option.bind_some]

/-- A round of `FIND(k)` at a pair of kind `k` answers its value. -/
theorem findLoop_of_found (hk : s.memRead16 p = k) : State.findLoop k (fuel + 1) (s.scanAt p r) =
    some (some (s.memRead16 (p + 2)), s.scanAt (p + 4) (s.memRead16 (p + 2))) := by
  have hlen := h.len_le
  have hmore := mt (remaining_lt_four_iff h (p := p) (by omega)).1 (by omega)
  simp only [State.findLoop, ask_remaining_scanAt h, Option.bind_some, if_neg hmore]
  rw [ask_readU16_scanAt h hp (by omega), Option.bind_some, if_pos hk, ask_readU16_scanAt h (by omega) (by omega),
    Option.bind_some]

/-- A round of `FIND(k)` at a pair of another kind skips its value. -/
theorem findLoop_of_other (hk : s.memRead16 p ≠ k) : State.findLoop k (fuel + 1) (s.scanAt p r) =
    State.findLoop k fuel (s.scanAt (p + 4) 0#16) := by
  have hlen := h.len_le
  have hmore := mt (remaining_lt_four_iff h (p := p) (by omega)).1 (by omega)
  simp only [State.findLoop, ask_remaining_scanAt h, Option.bind_some, if_neg hmore]
  rw [ask_readU16_scanAt h hp (by omega), Option.bind_some, if_neg hk,
    ask_skip_scanAt h (by decide) (by omega) (by omega), Option.bind_some]

end

/-! ### The scans -/

section
variable {s : State} (h : s.Scannable)
include h

/-- With no whole pair left at the cursor, `REMAINING` answers less than 4. -/
theorem remaining_lt_four_of_end : (ofInteger ((s.len : Int) - (s.headerLen + 4 * s.pairCount : Nat))).toInt < 4 :=
  (remaining_lt_four_iff h (pair_start_le h le_rfl)).2 (Nat.not_le.1 (mt lt_pairCount_iff.2 (lt_irrefl _)))

/-- With the cursor at pair `j` and `m` pairs left, the loop of `ALL()` appends them and ends. -/
theorem allLoop_eq {j m fuel : Nat} (hj : j + m = s.pairCount) (hm : m < fuel) (out : List (Half × Half)) (r : Half) :
    ∃ p r', State.allLoop fuel out (s.scanAt (s.headerLen + 4 * j) r) =
      some (out ++ (List.range' j m).map s.pairAt, s.scanAt p r') := by
  induction fuel generalizing j m out r with
  | zero => exact absurd hm (Nat.not_lt_zero m)
  | succ fuel ih =>
    cases m with
    | zero =>
      rw [Nat.add_zero] at hj
      rw [hj, List.range'_zero, List.map_nil, List.append_nil]
      exact ⟨_, _, allLoop_of_end (ask_remaining_scanAt h) (remaining_lt_four_of_end h)⟩
    | succ m =>
      have hpair : s.headerLen + 4 * j + 4 ≤ s.len := lt_pairCount_iff.1 (by omega)
      obtain ⟨p, r', hrest⟩ := ih (j := j + 1) (m := m) (by omega) (by omega) (out ++ [s.pairAt j])
        (s.memRead16 (s.headerLen + 4 * j + 2))
      rw [List.append_assoc, List.singleton_append, ← List.map_cons, ← List.range'_succ] at hrest
      exact ⟨p, r', (allLoop_of_pair h (Nat.le_add_right _ _) hpair).trans hrest⟩

/-- With the cursor at pair `j` and `m` pairs left, the loop of `FIND(k)` answers the first of them of kind `k`. -/
theorem findLoop_eq (k : Half) {j m fuel : Nat} (hj : j + m = s.pairCount) (hm : m < fuel) (r : Half) :
    ∃ p r', State.findLoop k fuel (s.scanAt (s.headerLen + 4 * j) r) =
      some ((((List.range' j m).map s.pairAt).find? fun q => decide (q.1 = k)).map (·.2), s.scanAt p r') := by
  induction fuel generalizing j m r with
  | zero => exact absurd hm (Nat.not_lt_zero m)
  | succ fuel ih =>
    cases m with
    | zero =>
      rw [Nat.add_zero] at hj
      rw [hj]
      exact ⟨_, _, findLoop_of_end (ask_remaining_scanAt h) (remaining_lt_four_of_end h)⟩
    | succ m =>
      have hpair : s.headerLen + 4 * j + 4 ≤ s.len := lt_pairCount_iff.1 (by omega)
      rw [List.range'_succ, List.map_cons]
      by_cases hk : (s.pairAt j).1 = k
      · rw [List.find?_cons_of_pos (by simpa using hk)]
        exact ⟨_, _, findLoop_of_found h (Nat.le_add_right _ _) hpair hk⟩
      · obtain ⟨p, r', hrest⟩ := ih (j := j + 1) (m := m) (by omega) (by omega) 0#16
        rw [List.find?_cons_of_neg (by simpa using hk)]
        exact ⟨p, r', (findLoop_of_other h (Nat.le_add_right _ _) hpair hk).trans hrest⟩

/-- `ALL()` answers the pairs of the payload and moves the cursor only (45_payload.md R195). -/
theorem allReadings_eq : ∃ p r, s.allReadings = some (s.pairs, s.scanAt p r) := by
  obtain ⟨p, r, hloop⟩ := allLoop_eq h (Nat.zero_add _) (pairCount_lt_scanBound h) [] 0#16
  rw [List.nil_append, ← pairs_eq_map_range'] at hloop
  exact ⟨p, r, by rw [State.allReadings, ask_rewind h]; exact hloop⟩

/-- `FIND(k)` answers the first pair of kind `k` and moves the cursor only (45_payload.md R194). -/
theorem find_eq (k : Half) :
    ∃ p r, s.find k = some ((s.pairs.find? fun q => decide (q.1 = k)).map (·.2), s.scanAt p r) := by
  obtain ⟨p, r, hloop⟩ := findLoop_eq h k (Nat.zero_add _) (pairCount_lt_scanBound h) 0#16
  rw [← pairs_eq_map_range'] at hloop
  exact ⟨p, r, by rw [State.find, ask_rewind h]; exact hloop⟩

/-- No packet holds more whole pairs than fit after the shorter header (45_payload.md R197). -/
theorem pairs_length_le : s.pairs.length ≤ (s.params.bufSize - s.params.hdrLenV1) / 4 := by
  rw [pairs_length]
  exact Nat.le_of_lt_succ (pairCount_lt_scanBound h)

end

/-! ### A packet with no reading (45_payload.md R197) -/

section
variable {s : State} (h : s.Scannable) (hlen : s.len < s.headerLen + 4) (kind : Config.ReadingKind)
include h hlen

/-- There `FIND` answers ABSENT for every kind. -/
theorem find_eq_absent (k : Half) : ∃ u, s.find k = some (none, u) := by
  obtain ⟨p, r, hfind⟩ := find_eq h k
  rw [pairs_eq_nil hlen] at hfind
  exact ⟨_, hfind⟩

theorem hasKind_eq_false : ∃ u, s.hasKind kind = some (false, u) := by
  obtain ⟨u, hfind⟩ := find_eq_absent h hlen (Config.kindCode kind)
  exact ⟨u, by rw [State.hasKind, hfind]; rfl⟩

theorem getKind_eq_default (default : Half) : ∃ u, s.getKind kind default = some (default, u) := by
  obtain ⟨u, hfind⟩ := find_eq_absent h hlen (Config.kindCode kind)
  exact ⟨u, by rw [State.getKind, hfind]; rfl⟩

end

end Sys2Proof.Machine
end

section
/-!
Adding readings to a fresh packet (45_payload.md R192, R201): the whole pairs of the payload are the readings added so
far, kept by every field command that writes below the payload, and one longer after every `ADD_READING` that fits.
-/

namespace Sys2Proof.Machine

open Sys2Proof.Spec

variable {s t : State} {p : Config.Params} {hdr n : Nat} {readings : List (Half × Half)}

/-! ### Issuing commands in two parts -/

/-- When the first commands have a next state, the others are issued from there. -/
theorem issueAll_append_of_next {l : List Instr} (rest : List Instr) (h : s.issueAll l = .next t) :
    s.issueAll (l ++ rest) = t.issueAll rest := by
  induction l generalizing s with
  | nil =>
    cases h
    rfl
  | cons i l ih =>
    cases hi : s.issue i with
    | next u =>
      rw [issueAll_cons_of_next l hi] at h
      exact (issueAll_cons_of_next (l ++ rest) hi).trans (ih h)
    | fault r => simp [State.issueAll, hi] at h
    | refused r => simp [State.issueAll, hi] at h

/-! ### What the pairs depend on -/

theorem pairAt_congr {j : Nat} (hhl : t.headerLen = s.headerLen)
    (hkind : t.memRead16 (s.headerLen + 4 * j) = s.memRead16 (s.headerLen + 4 * j))
    (hvalue : t.memRead16 (s.headerLen + 4 * j + 2) = s.memRead16 (s.headerLen + 4 * j + 2)) :
    t.pairAt j = s.pairAt j := by
  rw [State.pairAt, State.pairAt, hhl, hkind, hvalue]

/-- The pairs depend on LEN, the header length and the bytes from there on. -/
theorem pairs_congr (hlen : t.len = s.len) (hhl : t.headerLen = s.headerLen)
    (hbytes : ∀ a, s.headerLen ≤ a → t.byteAt a = s.byteAt a) : t.pairs = s.pairs := by
  rw [State.pairs, State.pairs, State.pairCount, State.pairCount, hlen, hhl]
  exact List.map_congr_left fun j _ => pairAt_congr hhl (memRead16_congr (hbytes _ (by omega)) (hbytes _ (by omega)))
    (memRead16_congr (hbytes _ (by omega)) (hbytes _ (by omega)))

/-- One pair more after pairs that read as before. -/
theorem pairs_eq_append (hcount : t.pairCount = s.pairCount + 1)
    (hold : ∀ j < s.pairCount, t.pairAt j = s.pairAt j) : t.pairs = s.pairs ++ [t.pairAt s.pairCount] := by
  rw [State.pairs, hcount, List.range_succ, List.map_append, List.map_singleton, State.pairs]
  exact congrArg (· ++ _) (List.map_congr_left fun j hj => hold j (List.mem_range.1 hj))

/-! ### The words of a packet under construction -/

/-- `WRITE_U16` puts its word after the `n` words before it and leaves these alone. -/
theorem State.Building.memRead16_of_writeU16 (hb : s.Building p hdr n) {v : Half} (h : exec (.writeU16 v) s = .next t)
    (ht : t.InService) :
    t.memRead16 (hdr + 2 * n) = v ∧ ∀ a, a + 2 ≤ hdr + 2 * n → t.memRead16 a = s.memRead16 a := by
  have hword (a : Nat) : t.memRead16 a = (s.memWrite16 (hdr + 2 * n) v).memRead16 a := by
    rw [writeU16_inService h ht, hb.effPtr_eq]
    rfl
  refine ⟨(hword _).trans (memRead16_memWrite16 s _ v), fun a ha => ?_⟩
  exact (hword a).trans (memRead16_memWrite16_disjoint s v (.inl ha))

/-- Two words are a pair (45_payload.md R190). -/
theorem State.Building.pairCount_eq (hb : s.Building p hdr (2 * n)) : s.pairCount = n := by
  rw [State.pairCount, hb.len_eq, hb.headerLen_eq]
  split <;> omega

theorem State.Building.scannable (hb : s.Building p hdr n) (hp : p.Consistent) (hfit : hdr + 2 * n ≤ p.bufSize) :
    s.Scannable := by
  refine ⟨hb.inService, hb.params_eq ▸ hp, ?_⟩
  rw [hb.len_eq, hb.params_eq]
  split <;> omega

/-! ### The packet with the readings added so far -/

/-- A packet under construction whose pairs are the readings given. -/
structure State.Carrying (p : Config.Params) (hdr : Nat) (readings : List (Half × Half)) (s : State) : Prop where
  building : s.Building p hdr (2 * readings.length)
  pairs_eq : s.pairs = readings

/-- `RESET` starts a packet with no reading. -/
theorem carrying_of_reset (hs : s.InService) (hreset : exec .reset s = .next t) :
    t.Carrying s.params t.headerLen [] := by
  have hb : t.Building s.params t.headerLen 0 := building_of_reset hs hreset
  exact ⟨hb, pairs_eq_nil (by rw [hb.len_eq, if_pos rfl]; omega)⟩

/-- A field that ends below the header length takes no byte of the payload. -/
theorem State.Carrying.issue_setCommand (hc : s.Carrying p hdr readings) {f : HeaderField} (hf : f ≠ .version)
    (hend : f.offset + 2 ≤ hdr) (v : Half) :
    ∃ t, s.issue (setCommand f v) = .next t ∧ t.Carrying p hdr readings := by
  obtain ⟨hb, hpairs⟩ := hc
  obtain ⟨t, ht, hbt⟩ := hb.exec_setCommand hf v
  refine ⟨t, (issue_of_wf hb.inService (setCommand_wf f v)).trans ht, hbt, ?_⟩
  rw [exec_setCommand hb.inService] at ht
  cases ht
  have hhl : ((s.setField f v).respond 0#16).headerLen = s.headerLen := hbt.headerLen_eq.trans hb.headerLen_eq.symm
  refine (pairs_congr (setField_len s f v) hhl fun a ha => ?_).trans hpairs
  rw [hb.headerLen_eq] at ha
  exact sameBytesOutside_setField s f v a (.inr (hend.trans ha))

theorem State.Carrying.issue_getCommand (hc : s.Carrying p hdr readings) (f : HeaderField) :
    ∃ t, s.issue (getCommand f) = .next t ∧ t.Carrying p hdr readings := by
  obtain ⟨hb, hpairs⟩ := hc
  obtain ⟨t, ht, hbt⟩ := hb.exec_getCommand f
  refine ⟨t, (issue_of_wf hb.inService (getCommand_wf f)).trans ht, hbt, ?_⟩
  rw [exec_getCommand hb.inService] at ht
  cases ht
  exact hpairs

/-- A field command of 41_cursor.md R166 keeps the readings; `SET_CRC` does where bytes 10 and 11 are of the header. -/
theorem State.Carrying.issue_fieldCommand (hc : s.Carrying p hdr readings) (hhdr : 10 ≤ hdr) {i : Instr}
    (hi : isFieldCommand i = true) (hcrc : ∀ v, i = .setCrc v → 12 ≤ hdr) :
    ∃ t, s.issue i = .next t ∧ t.Carrying p hdr readings := by
  obtain ⟨f, v, hne, rfl⟩ | ⟨f, rfl⟩ := isFieldCommand_cases hi
  · refine hc.issue_setCommand hne ?_ v
    by_cases hf : f = .crc
    · subst hf
      exact hcrc v rfl
    · exact (offset_add_two_le hf).trans hhdr
  · exact hc.issue_getCommand f

/-- `ADD_READING` that fits adds its pair at the end (45_payload.md R192). -/
theorem State.Carrying.issueAll_addReading (hc : s.Carrying p hdr readings) (hp : p.Consistent)
    (hfit : hdr + 4 * (readings.length + 1) ≤ p.bufSize) (k v : Half) :
    ∃ t, s.issueAll (addReading k v) = .next t ∧ t.Carrying p hdr (readings ++ [(k, v)]) := by
  obtain ⟨hb, rfl⟩ := hc
  obtain ⟨u, hu, hbu⟩ := hb.exec_writeU16 hp (by omega) k
  obtain ⟨t, ht, hbt⟩ := hbu.exec_writeU16 hp (by omega) v
  obtain ⟨hkind, hold⟩ := hb.memRead16_of_writeU16 hu hbu.inService
  obtain ⟨hvalue, hold'⟩ := hbu.memRead16_of_writeU16 ht hbt.inService
  have hrun : s.issueAll (addReading k v) = .next t := by
    rw [addReading, issueAll_cons_of_next _ ((issue_of_wf hb.inService rfl).trans hu),
      issueAll_cons_of_next _ ((issue_of_wf hbu.inService rfl).trans ht)]
    rfl
  rw [pairs_length] at hbt hkind hold hvalue hold'
  have hcount : t.pairCount = s.pairCount + 1 := hbt.pairCount_eq
  have hhl : t.headerLen = s.headerLen := hbt.headerLen_eq.trans hb.headerLen_eq.symm
  have hsame (a : Nat) (ha : a + 2 ≤ hdr + 2 * (2 * s.pairCount)) : t.memRead16 a = s.memRead16 a :=
    (hold' a (by omega)).trans (hold a ha)
  have hlast : t.pairAt s.pairCount = (k, v) := by
    rw [State.pairAt, hbt.headerLen_eq, show hdr + 4 * s.pairCount = hdr + 2 * (2 * s.pairCount) by omega,
      hold' _ (by omega), hkind]
    exact congrArg _ hvalue
  refine ⟨t, hrun, by rwa [List.length_append, pairs_length], ?_⟩
  rw [pairs_eq_append hcount fun j hj => ?_, hlast]
  rw [← hb.headerLen_eq] at hsame
  exact pairAt_congr hhl (hsame _ (by omega)) (hsame _ (by omega))

/-! ### Any acts in any order -/

theorem actCommands_cons (act : Act) (acts : List Act) :
    actCommands (act :: acts) = actCommands [act] ++ actCommands acts := by
  rw [← List.singleton_append, actCommands, List.flatMap_append, actCommands, actCommands]

theorem actReadings_cons (act : Act) (acts : List Act) :
    actReadings (act :: acts) = actReadings [act] ++ actReadings acts := by
  rw [← List.singleton_append, actReadings, List.filterMap_append, actReadings, actReadings]

/-- A host's acts leave the readings among them, in order, after those before. -/
theorem State.Carrying.issueAll_actCommands (hc : s.Carrying p hdr readings) (hp : p.Consistent) (hhdr : 10 ≤ hdr)
    {acts : List Act}
    (hfield : ∀ i, .inl i ∈ acts → isFieldCommand i = true ∧ ∀ v, i = .setCrc v → 12 ≤ hdr)
    (hfit : hdr + 4 * (readings.length + (actReadings acts).length) ≤ p.bufSize) :
    ∃ t, s.issueAll (actCommands acts) = .next t ∧ t.Carrying p hdr (readings ++ actReadings acts) := by
  induction acts generalizing s readings with
  | nil => exact ⟨s, rfl, by simpa [actReadings] using hc⟩
  | cons act acts ih =>
    rw [actReadings_cons, List.length_append] at hfit
    obtain ⟨u, hu, hcu⟩ : ∃ u, s.issueAll (actCommands [act]) = .next u ∧
        u.Carrying p hdr (readings ++ actReadings [act]) := by
      cases act with
      | inl i =>
        obtain ⟨hi, hcrc⟩ := hfield i List.mem_cons_self
        obtain ⟨u, hu, hcu⟩ := hc.issue_fieldCommand hhdr hi hcrc
        exact ⟨u, issueAll_cons_of_next [] hu, (List.append_nil readings).symm ▸ hcu⟩
      | inr reading => exact hc.issueAll_addReading hp (hfit.trans' (by simp [actReadings])) _ _
    obtain ⟨t, ht, hct⟩ := ih hcu (fun i hi => hfield i (List.mem_cons_of_mem act hi))
      (by rw [List.length_append]; omega)
    rw [List.append_assoc, ← actReadings_cons] at hct
    rw [actCommands_cons]
    exact ⟨t, (issueAll_append_of_next _ hu).trans ht, hct⟩

/-- At a Version that carries a CRC the header holds its field. -/
theorem twelve_le_headerLen (hp : s.params.Consistent) (h : CarriesCrc s) : 12 ≤ s.headerLen := by
  obtain ⟨_, _, _, hv2, _⟩ := hp
  rwa [State.headerLen, if_pos ((hasCrc_iff s).2 h)]

end Sys2Proof.Machine
end

section
/-!
Sending a packet and receiving one (45_payload.md R198, R200): the header written and the CRC field stamped, the packet
read out, a frame loaded and checked.
-/

namespace Sys2Proof.Machine

open Sys2Proof.Spec

variable {s t u : State}

/-! ### What stays the same, in a row -/

theorem State.SameRegisters.trans (h : s.SameRegisters t) (h' : t.SameRegisters u) : s.SameRegisters u := by
  obtain ⟨hptr, hlen, hstatus, hinputs, hpowerOns, hparams⟩ := h
  obtain ⟨hptr', hlen', hstatus', hinputs', hpowerOns', hparams'⟩ := h'
  exact ⟨hptr'.trans hptr, hlen'.trans hlen, hstatus'.trans hstatus, hinputs'.trans hinputs,
    hpowerOns'.trans hpowerOns, hparams'.trans hparams⟩

theorem State.SameRegisters.inService (h : s.SameRegisters t) (hs : s.InService) : t.InService := by
  obtain ⟨_, _, hstatus, _⟩ := h
  exact (faulted_congr hstatus).trans hs

theorem State.SameRegisters.len_le (h : s.SameRegisters t) (hl : s.len ≤ s.params.bufSize) :
    t.len ≤ t.params.bufSize := by
  obtain ⟨_, hlen, _, _, _, hparams⟩ := h
  rwa [hlen, hparams]

/-! ### Setting the header -/

/-- Writing fields writes no register but RESULT. -/
theorem sameRegisters_setFields (s : State) (writes : List (HeaderField × Half)) :
    s.SameRegisters (s.setFields writes) := by
  induction writes generalizing s with
  | nil => exact ⟨rfl, rfl, rfl, rfl, rfl, rfl⟩
  | cons w rest ih => exact State.SameRegisters.trans ⟨rfl, rfl, rfl, rfl, rfl, rfl⟩ (ih _)

/-- The fields end before byte 12 (10_state.md R36). -/
theorem byteAt_setFields (s : State) (writes : List (HeaderField × Half)) {a : Nat} (ha : 12 ≤ a) :
    (s.setFields writes).byteAt a = s.byteAt a := by
  induction writes generalizing s with
  | nil => rfl
  | cons w rest ih =>
    obtain ⟨f, v⟩ := w
    have hf : f.offset ≤ 10 := offset_le f
    exact (ih _).trans (sameBytesOutside_setField s f v a (.inr (by omega)))

/-- The header `send` writes, in its order (45_payload.md R198). -/
def sendWrites (version t id alerts : Half) : List (HeaderField × Half) :=
  [(.version, version), (.type, t), (.networkId, 0#16), (.deviceId, id), (.alerts, alerts)]

theorem sendWrites_nodup (version t id alerts : Half) : ((sendWrites version t id alerts).map Prod.fst).Nodup := by
  simp [sendWrites]

/-! ### Stamping the checksum -/

/-- `CRC_IS_VALID` would answer 1 (42_crc.md R180). -/
def State.CrcMatches (s : State) : Prop := ¬ CarriesCrc s ∨ s.checksum = s.getField .crc

/-- `UPDATE_CRC` writes at most the CRC field and RESULT, and leaves a packet whose check succeeds, at every Version. -/
theorem exists_exec_updateCrc (hs : s.InService) (hl : s.len ≤ s.params.bufSize) :
    ∃ t, exec .updateCrc s = .next t ∧ t.CrcMatches ∧ s.SameRegisters t ∧ s.SameBytesOutside t 10 2 := by
  by_cases hc : CarriesCrc s
  · have hexec := exec_updateCrc_of_carriesCrc hs hl hc
    obtain ⟨hmatch, _⟩ := updateCrc_stamps hs hl hc hexec
    exact ⟨_, hexec, .inr hmatch, ⟨rfl, rfl, rfl, rfl, rfl, rfl⟩, sameBytesOutside_setField s .crc s.checksum⟩
  · exact ⟨_, exec_updateCrc_of_not_carriesCrc hs hl hc, .inl hc, ⟨rfl, rfl, rfl, rfl, rfl, rfl⟩,
      fun _ _ => rfl⟩

/-- Every other field lies below the CRC field. -/
theorem getField_congr_of_sameBytesOutside_crc {f : HeaderField} (hf : f ≠ .crc) (h : s.SameBytesOutside t 10 2) :
    t.getField f = s.getField f :=
  getField_congr_of_lt_ten hf fun x hx => h x (.inl hx)

/-! ### `send` (45_payload.md R198) -/

/-- The commands before the read-out write the header given, stamp the checksum and change nothing from byte 12 on. -/
theorem issueAll_setCommands_updateCrc (hs : s.InService) (hl : s.len ≤ s.params.bufSize)
    {writes : List (HeaderField × Half)} (hnodup : (writes.map Prod.fst).Nodup) (hcrc : .crc ∉ writes.map Prod.fst) :
    ∃ u, s.issueAll (setCommands writes ++ [.updateCrc]) = .next u ∧ u.CrcMatches ∧ s.SameRegisters u ∧
      (∀ w ∈ writes, u.getField w.1 = w.2) ∧ ∀ a, 12 ≤ a → u.byteAt a = s.byteAt a := by
  have hregs : s.SameRegisters (s.setFields writes) := sameRegisters_setFields s writes
  have hset : (s.setFields writes).InService := hregs.inService hs
  obtain ⟨u, hexec, hvalid, hregs', hbytes⟩ := exists_exec_updateCrc hset (hregs.len_le hl)
  have hlast : (s.setFields writes).issueAll [.updateCrc] = .next u :=
    issueAll_cons_of_next [] ((issue_of_wf hset rfl).trans hexec)
  refine ⟨u, (issueAll_append_of_next _ (issueAll_setCommands hs writes)).trans hlast, hvalid, hregs.trans hregs',
    fun w hw => ?_, fun a ha => (hbytes a (.inr ha)).trans (byteAt_setFields s writes ha)⟩
  have hne : w.1 ≠ .crc := fun h => hcrc (h ▸ List.mem_map_of_mem hw)
  exact (getField_congr_of_sameBytesOutside_crc hne hbytes).trans (getField_setFields_of_mem hnodup hw)

theorem ask_getLength (hs : s.InService) : s.ask .getLength = some (ofCount s.len, s.respond (ofCount s.len)) :=
  ask_of_exec hs rfl (exec_getLength hs)

/-- After the header and the stamp `send` asks for the length and reads that many bytes out, which writes RESULT
only. -/
theorem send_eq (hs : s.InService) (h256 : s.len ≤ 256) (hl : s.len ≤ s.params.bufSize) {t id alerts : Half}
    (hrun : s.issueAll (setCommands (sendWrites s.params.protocolVersion t id alerts) ++ [.updateCrc]) = .next u)
    (hregs : s.SameRegisters u) :
    ∃ r, s.send t id alerts = some ((List.range s.len).map fun a => ofByte (u.byteAt a), u.respond r) := by
  have hu : u.InService := hregs.inService hs
  have hul : u.len ≤ u.params.bufSize := hregs.len_le hl
  obtain ⟨_, hlen, _⟩ := hregs
  obtain ⟨r, hread⟩ := readOut_eq_some (s := u.respond (ofCount u.len)) (i := 0) (m := u.len) hu (by omega)
    (by rw [respond_len]; omega) (by rw [respond_params]; omega)
  change s.issueAll [.setVersion s.params.protocolVersion, .setType t, .setNetworkId 0#16, .setDeviceId id,
    .setAlerts alerts, .updateCrc] = .next u at hrun
  refine ⟨r, ?_⟩
  simp only [State.send, hrun, ask_getLength hu, Option.bind_some, toNat_ofCount (show u.len < 2 ^ 16 by omega), hread]
  rw [hlen, ← List.range_eq_range']
  rfl

/-! ### Loading a frame (30_encoding.md R88) -/

/-- `BUF_WRITE` of the bytes given, from index `i` on, puts them there and writes no register but RESULT. -/
theorem issueAll_writeBytes (hs : s.InService) {i : Nat} {bytes : List Byte} (h8 : i + bytes.length ≤ 2 ^ 8)
    (hb : i + bytes.length ≤ s.params.bufSize) :
    ∃ t, s.issueAll (writeBytes i bytes) = .next t ∧ (List.range' i bytes.length).map t.byteAt = bytes ∧
      s.SameRegisters t ∧ s.SameBytesOutside t i bytes.length := by
  induction bytes generalizing s i with
  | nil => exact ⟨s, rfl, rfl, ⟨rfl, rfl, rfl, rfl, rfl, rfl⟩, fun _ _ => rfl⟩
  | cons b rest ih =>
    rw [List.length_cons] at h8 hb ⊢
    have hfirst : s.issue (.bufWrite i b) = .next ((s.setByte i b).respond 0#16) :=
      (issue_of_wf (i := .bufWrite i b) hs ((indexFits_iff i).2 (by omega))).trans (exec_bufWrite hs b (by omega))
    obtain ⟨t, hrest, hbytes, hregs, houtside⟩ := ih (s := (s.setByte i b).respond 0#16) (i := i + 1) hs (by omega)
      (by rw [respond_params, setByte_params]; omega)
    refine ⟨t, (issueAll_cons_of_next _ hfirst).trans hrest, ?_,
      State.SameRegisters.trans ⟨rfl, rfl, rfl, rfl, rfl, rfl⟩ hregs, fun a ha => ?_⟩
    · have hhead : t.byteAt i = b := by
        rw [houtside i (.inl (Nat.lt_succ_self i)), byteAt_respond, byteAt_setByte, if_pos rfl]
      rw [List.range'_succ, List.map_cons, hbytes, hhead]
    · rw [houtside a (by omega), byteAt_respond]
      exact sameBytesOutside_setByte s i b a (by omega)

/-- `LOAD_FRAME` leaves the bytes given as the packet and keeps every byte past them. -/
theorem issueAll_loadFrame (hs : s.InService) {bytes : List Byte} (h256 : bytes.length ≤ 256)
    (hb : bytes.length ≤ s.params.bufSize) :
    ∃ t, s.issueAll (loadFrame bytes) = .next t ∧ t.image = bytes ∧ t.len = bytes.length ∧
      t.ptr = min s.ptr bytes.length ∧ t.InService ∧ t.params = s.params ∧
      ∀ a, bytes.length ≤ a → t.byteAt a = s.byteAt a := by
  obtain ⟨u, hwrite, hbytes, hregs, houtside⟩ :=
    issueAll_writeBytes hs (i := 0) (bytes := bytes) (by omega) (by omega)
  have hu : u.InService := hregs.inService hs
  obtain ⟨hptr, _, _, _, _, hparams⟩ := hregs
  have hlength : u.issue (.setLength bytes.length) =
      .next (((u.setLen bytes.length).setPtr (min u.ptr bytes.length)).respond 0#16) :=
    (issue_of_wf (i := .setLength bytes.length) hu ((countFits_iff _).2 (by omega))).trans
      (exec_setLength hu (by rwa [hparams]))
  exact ⟨_, (issueAll_append_of_next _ hwrite).trans (issueAll_cons_of_next [] hlength), hbytes, rfl,
    congrArg (min · bytes.length) hptr, hu, hparams, fun a ha => houtside a (.inr (by omega))⟩

/-- `CRC_IS_VALID` gets an answer, changes nothing else and, issued again, gets it again (20_memory.md R67). -/
theorem ask_crcIsValid (hs : s.InService) (hl : s.len ≤ s.params.bufSize) :
    ∃ r, s.ask .crcIsValid = some (r, s.respond r) ∧ Completes .crcIsValid (s.respond r) (·.result = r) := by
  have hexec := exec_crcIsValid_eq hs hl
  obtain ⟨_, _, _, hagain⟩ := execCrcIsValid_isQuiet _ hexec
  exact ⟨_, ask_of_exec hs rfl hexec, _, hagain, rfl⟩

end Sys2Proof.Machine
end

section
/-!
The statements of 45_payload.md.
-/

namespace Sys2Proof.Proofs

open Sys2Proof.Machine Sys2Proof.Spec

/-- Settles O44: each loop goes over the pairs one by one, and a scan writes PTR and RESULT only. -/
theorem scansAnswerTheWholePairs : Obligations.ScansAnswerTheWholePairs := by
  intro s hinv hs
  have hscan : s.Scannable := hinv.scannable hs
  obtain ⟨p, r, hall⟩ := allReadings_eq hscan
  refine ⟨⟨_, hall, sameBytes_scanAt s p r, rfl, hs⟩, fun k => ?_⟩
  obtain ⟨p', r', hfind⟩ := find_eq hscan k
  exact ⟨_, hfind, sameBytes_scanAt s p' r', rfl, hs⟩

/-- Settles O45: the loops end at the last whole pair, of which no packet holds more than the bound, and a packet with
none has no pair to find. -/
theorem scansNeverFault : Obligations.ScansNeverFault := by
  intro s hinv hs
  have hscan : s.Scannable := hinv.scannable hs
  have hbound : s.pairs.length ≤ (s.params.bufSize - s.params.hdrLenV1) / 4 := pairs_length_le hscan
  refine ⟨?_, fun k => ?_, fun hlen kind default => ?_⟩
  · obtain ⟨p, r, hall⟩ := allReadings_eq hscan
    refine ⟨_, _, hall, hs, hbound, fun hsource => ?_⟩
    rwa [bufSize_of_fromSource hsource, hdrLenV1_of_fromSource hsource] at hbound
  · obtain ⟨p, r, hfind⟩ := find_eq hscan k
    exact ⟨_, _, hfind, hs⟩
  · rw [← headerLen_eq_headerBytes] at hlen
    exact ⟨hasKind_eq_false hscan hlen kind, getKind_eq_default hscan hlen kind default⟩

/-- Settles O46: by induction on the acts the pairs of the payload are the readings added, and the scans answer the
pairs. -/
theorem readingsRoundTrip : Obligations.ReadingsRoundTrip := by
  intro s₀ s acts hp hs₀ hreset hfield hfit
  have hstart : s.Carrying s₀.params s.headerLen [] := carrying_of_reset hs₀ hreset
  have hparams : s.params = s₀.params := hstart.building.params_eq
  have hp' : s.params.Consistent := hparams ▸ hp
  obtain ⟨hhdr, _, _⟩ := headerLen_bounds hp'
  have hfield' (i : Instr) (hi : .inl i ∈ acts) :
      isFieldCommand i = true ∧ ∀ v, i = .setCrc v → 12 ≤ s.headerLen := by
    obtain ⟨hcommand, hcrc⟩ := hfield i hi
    exact ⟨hcommand, fun v hv => twelve_le_headerLen hp' (hcrc.resolve_right fun hne => hne v hv)⟩
  rw [hparams] at hfit
  obtain ⟨t, hrun, hend⟩ := hstart.issueAll_actCommands hp hhdr hfield' (by simpa using hfit)
  rw [List.nil_append] at hend
  have hscan : t.Scannable := hend.building.scannable hp (by omega)
  refine ⟨t, hrun, ?_, fun k => ?_⟩
  · obtain ⟨p, r, hall⟩ := allReadings_eq hscan
    exact ⟨_, hend.pairs_eq ▸ hall⟩
  · obtain ⟨p, r, hfind⟩ := find_eq hscan k
    exact ⟨_, hend.pairs_eq ▸ hfind⟩

/-- Settles O47: the five `SET_` commands write different fields, `UPDATE_CRC` writes the CRC field at most, and the
read-out writes RESULT only. -/
theorem sendHandsOverTheCheckedPacket : Obligations.SendHandsOverTheCheckedPacket := by
  intro s t id alerts hinv hs h256
  obtain ⟨u, hrun, hvalid, hregs, hfields, hbytes⟩ := issueAll_setCommands_updateCrc hs hinv.len_le
    (sendWrites_nodup s.params.protocolVersion t id alerts) (by simp [sendWrites])
  obtain ⟨r, hsend⟩ := send_eq hs h256 hinv.len_le hrun hregs
  have hu : u.InService := hregs.inService hs
  have hfit : u.len ≤ u.params.bufSize := hregs.len_le hinv.len_le
  obtain ⟨hptr, hlen, _⟩ := hregs
  simp only [sendWrites, List.forall_mem_cons] at hfields
  obtain ⟨hversion, htype, hnetwork, hdevice, halerts, _⟩ := hfields
  exact ⟨_, _, hsend, rfl, hlen, hptr, hu, hdevice, hnetwork, hversion, halerts, htype, hbytes,
    crcIsValid_completes_one (s := u.respond r) hu hfit hvalid⟩

/-- Settles O48: `BUF_WRITE` goes up the addresses, `SET_LENGTH` makes the bytes the packet, and `CRC_IS_VALID` writes
RESULT only. -/
theorem receiveLoadsTheFrame : Obligations.ReceiveLoadsTheFrame := by
  intro s bytes hs h256 hsize
  obtain ⟨t, hload, himage, hlen, hptr, ht, hparams, hbytes⟩ := issueAll_loadFrame hs h256 hsize
  obtain ⟨r, hask, hagain⟩ := ask_crcIsValid ht (by rwa [hlen, hparams])
  exact ⟨r, t.respond r, by rw [State.receive, hload]; exact hask, himage, hlen, hptr, hbytes, hagain⟩

end Sys2Proof.Proofs
end

section
/-!
Faults and refusals (60_exceptions.md R210 to R218): the rows of R211 as one predicate, and the four things a command
can do.
-/

namespace Sys2Proof.Machine

open Sys2Proof.Spec

variable {s t : State} {i : Instr} {c : Cause}

/-! ### Refusal after a fault (60_exceptions.md R217) -/

/-- The refusal after a fault comes first in the meaning of every command (60_exceptions.md R218). -/
theorem exec_eq_unlessFaulted (i : Instr) : ∃ go, ∀ s, exec i s = s.unlessFaulted go := by
  cases i <;> exact ⟨_, fun _ => rfl⟩

theorem exec_refused (hf : s.faulted = true) (i : Instr) : exec i s = .next s := by
  obtain ⟨go, hgo⟩ := exec_eq_unlessFaulted i
  rw [hgo, unlessFaulted_of_faulted hf]

/-- Of the steps after a fault only a power-on reset clears it. -/
theorem step_clears_fault_iff (hf : s.faulted = true) (h : step s = .next t) :
    t.faulted = false ↔ ∃ rest, s.inputs = .powerOn :: rest := by
  cases step_cases h with
  | idle hi ht => simp [ht, hi, hf]
  | powerOn rest hi ht => simp [ht, hi]
  | refused w rest hi _ ht => simp [ht, hi, hf]
  | illegal _ _ _ _ hs | executed _ _ _ _ hs => simp [State.InService, hf] at hs

/-! ### The range faults (60_exceptions.md R214, R215, R216) -/

/-- A command of one of the rows 2 to 4 of 60_exceptions.md R211 with its condition met, and the row's cause. -/
inductive RangeFault (s : State) : Instr → Cause → Prop
  | writeU16 (v : Half) (h : s.params.bufSize < s.effPtr + 2) : RangeFault s (.writeU16 v) .cursorOverrun
  | readU16 (h : s.params.bufSize < s.effPtr + 2) : RangeFault s .readU16 .cursorOverrun
  | skip (n : Nat) (h : s.params.bufSize < s.effPtr + n) : RangeFault s (.skip n) .cursorOverrun
  | setLength (n : Nat) (h : s.params.bufSize < n) : RangeFault s (.setLength n) .lengthRange
  | bufRead (j : Nat) (h : s.len ≤ j) : RangeFault s (.bufRead j) .viewRange

/-- No condition depends on what is still to arrive. -/
theorem RangeFault.of_takeInput (h : RangeFault s.takeInput i c) : RangeFault s i c := by
  cases h with
  | writeU16 v h => exact .writeU16 v h
  | readU16 h => exact .readU16 h
  | skip n h => exact .skip n h
  | setLength n h => exact .setLength n h
  | bufRead j h => exact .bufRead j h

/-- In service a range check that finds its condition met raises the fault. -/
theorem unlessFaulted_faultIf_of_bad (hs : s.InService) {bad : State → Bool} {go : State → State} (h : bad s = true) :
    (s.unlessFaulted fun s => s.faultIf (bad s) c go) = .next (s.withFault c) := by
  rw [unlessFaulted_of_inService hs, faultIf_eq, if_pos h]

/-- In service each row's command raises the row's cause on the row's condition. -/
theorem exec_of_rangeFault (hs : s.InService) (h : RangeFault s i c) : exec i s = .next (s.withFault c) := by
  cases h with
  | writeU16 v h | readU16 h | skip n h | setLength n h =>
    apply unlessFaulted_faultIf_of_bad hs
    exact decide_eq_true h
  | bufRead j h => exact exec_bufRead_outside hs h

/-- The same with the value STATUS takes. -/
theorem exec_of_rangeFault_status {st : Half} (hc : faultStatus c = st) (hs : s.InService) (h : RangeFault s i c) :
    exec i s = .next { s with status := st } :=
  hc ▸ exec_of_rangeFault hs h

/-! ### Where the model stops (log 8) -/

/-- An access outside BUF stops the model. -/
theorem within_of_lt {a n : Nat} (h : s.params.bufSize < a + n) (go : State → Host.Outcome State Fault Refusal) :
    s.within a n go = .fault (.outsideBuffer (a + n - 1)) := by
  rw [State.within, if_neg (Nat.not_le.2 h)]

theorem exec_updateCrc_outside (hs : s.InService) (hl : s.params.bufSize < s.len) :
    exec .updateCrc s = .fault (.outsideBuffer (s.len - 1)) := by
  change execUpdateCrc s = _
  rw [execUpdateCrc, unlessFaulted_of_inService hs, within_of_lt (by omega), Nat.zero_add]

theorem exec_crcIsValid_outside (hs : s.InService) (hl : s.params.bufSize < s.len) :
    exec .crcIsValid s = .fault (.outsideBuffer (s.len - 1)) := by
  change execCrcIsValid s = _
  rw [execCrcIsValid, unlessFaulted_of_inService hs, within_of_lt (by omega), Nat.zero_add]

theorem exec_bufWrite_outside (hs : s.InService) {a : Nat} (b : Byte) (ha : s.params.bufSize ≤ a) :
    exec (.bufWrite a b) s = .fault (.outsideBuffer a) := by
  change execBufWrite a b s = _
  rw [execBufWrite, unlessFaulted_of_inService hs, within_of_lt (Nat.lt_succ_of_le ha), Nat.add_sub_cancel]

theorem exec_bufRead_outsideBuffer (hs : s.InService) {j : Nat} (hj : j < s.len) (hb : s.params.bufSize ≤ j) :
    exec (.bufRead j) s = .fault (.outsideBuffer j) := by
  change execBufRead j s = _
  rw [execBufRead, unlessFaulted_of_inService hs, if_neg (Nat.not_le.2 hj), within_of_lt (Nat.lt_succ_of_le hb),
    Nat.add_sub_cancel]

/-! ### What a command can do -/

/-- The command has an address outside BUF in its reach: LEN is past BUF_SIZE, or the index of a `BUF_WRITE` does not lie
below it (log 8). -/
inductive ReachesOutside (s : State) : Instr → Prop
  | len (i : Instr) (h : s.params.bufSize < s.len) : ReachesOutside s i
  | bufWrite (a : Nat) (b : Byte) (h : s.params.bufSize ≤ a) : ReachesOutside s (.bufWrite a b)

/-- While the invariant holds no command a word can hold reaches outside BUF. -/
theorem not_reachesOutside (h : s.Inv) (hi : i.wf = true) : ¬ ReachesOutside s i
  | .len _ hlen => Nat.not_lt.2 h.len_le hlen
  | .bufWrite a _ ha => by
    have hindex : a < 2 ^ 8 := (indexFits_iff a).1 hi
    have hsize : 256 ≤ s.params.bufSize := h.params.1
    omega

/-- What the command `i` can do in `s`, in the order of checks of 60_exceptions.md R218. -/
inductive ExecCase (i : Instr) (s : State) : Prop
  /-- After a fault it is refused. -/
  | refused (hf : s.faulted = true) (he : exec i s = .next s)
  /-- It raises its one range fault. -/
  | faults (c : Cause) (hr : RangeFault s i c) (he : exec i s = .next (s.withFault c))
  /-- It completes, and ZPC stays in service. -/
  | completes (h : Completes i s State.InService)
  /-- The model stops (log 8). -/
  | stops (r : Fault) (h : ReachesOutside s i) (he : exec i s = .fault r)

/-- A command with no check of its own completes, in service. -/
theorem completes_of_unlessFaulted (hs : s.InService) {go : State → State} (hgo : (go s).status = s.status) :
    ∃ t, (s.unlessFaulted fun s => .next (go s)) = .next t ∧ t.InService :=
  ⟨go s, unlessFaulted_of_inService hs _, (faulted_congr hgo).trans hs⟩

/-- The range check of a command decides between its fault and its completion. -/
theorem execCase_of_rangeCheck {q : Prop} (hs : s.InService) (hbad : q → RangeFault s i c)
    (hok : ¬ q → Completes i s State.InService) : ExecCase i s := by
  by_cases hq : q
  · exact .faults c (hbad hq) (exec_of_rangeFault hs (hbad hq))
  · exact .completes (hok hq)

/-- LEN decides between the completion of a command over BUF[0:LEN] and the model's stop. -/
theorem execCase_of_len {r : Fault} (hok : s.len ≤ s.params.bufSize → Completes i s State.InService)
    (hout : s.params.bufSize < s.len → exec i s = .fault r) : ExecCase i s := by
  by_cases hl : s.len ≤ s.params.bufSize
  · exact .completes (hok hl)
  · have hl : s.params.bufSize < s.len := Nat.not_le.1 hl
    exact .stops r (.len i hl) (hout hl)

theorem updateCrc_completes (hs : s.InService) (hl : s.len ≤ s.params.bufSize) :
    Completes .updateCrc s State.InService := by
  refine ⟨_, exec_updateCrc hs hl, ?_⟩
  cases s.hasCrc <;> exact hs

theorem execCase_bufWrite (hs : s.InService) (a : Nat) (b : Byte) : ExecCase (.bufWrite a b) s := by
  by_cases ha : a < s.params.bufSize
  · exact .completes ⟨_, exec_bufWrite hs b ha, hs⟩
  · exact .stops _ (.bufWrite a b (Nat.not_lt.1 ha)) (exec_bufWrite_outside hs b (Nat.not_lt.1 ha))

/-- `BUF_READ` checks its index against LEN first; an index below LEN lies in BUF when LEN does. -/
theorem execCase_bufRead (hs : s.InService) (j : Nat) : ExecCase (.bufRead j) s := by
  by_cases hj : s.len ≤ j
  · exact .faults .viewRange (.bufRead j hj) (exec_bufRead_outside hs hj)
  · have hj : j < s.len := Nat.not_le.1 hj
    by_cases hb : j < s.params.bufSize
    · exact .completes ⟨_, exec_bufRead hs hj hb, hs⟩
    · have hb : s.params.bufSize ≤ j := Nat.not_lt.1 hb
      exact .stops _ (.len _ (hb.trans_lt hj)) (exec_bufRead_outsideBuffer hs hj hb)

/-- The four cases are all that a command can do. -/
theorem exec_cases (i : Instr) (s : State) : ExecCase i s := by
  cases hs : s.faulted with
  | true => exact .refused hs (exec_refused hs i)
  | false =>
    cases i with
    | reset | setDeviceId | getDeviceId | setNetworkId | getNetworkId | setVersion | getVersion | setAlerts | getAlerts
    | setType | getType | setCrc | getCrc | headerLen | remaining | getLength | rewind =>
      apply ExecCase.completes
      apply completes_of_unlessFaulted hs
      rfl
    | writeU16 v => exact execCase_of_rangeCheck hs (.writeU16 v) fun h => ⟨_, exec_writeU16 hs v (Nat.not_lt.1 h), hs⟩
    | readU16 => exact execCase_of_rangeCheck hs .readU16 fun h => ⟨_, exec_readU16 hs (Nat.not_lt.1 h), hs⟩
    | skip n => exact execCase_of_rangeCheck hs (.skip n) fun h => ⟨_, exec_skip hs (Nat.not_lt.1 h), hs⟩
    | setLength n => exact execCase_of_rangeCheck hs (.setLength n) fun h => ⟨_, exec_setLength hs (Nat.not_lt.1 h), hs⟩
    | updateCrc => exact execCase_of_len (updateCrc_completes hs) (exec_updateCrc_outside hs)
    | crcIsValid => exact execCase_of_len (fun hl => ⟨_, exec_crcIsValid hs hl, hs⟩) (exec_crcIsValid_outside hs)
    | bufWrite a b => exact execCase_bufWrite hs a b
    | bufRead j => exact execCase_bufRead hs j

/-- While the invariant holds every command a word can hold has a next state. -/
theorem exists_exec_next (h : s.Inv) (hi : i.wf = true) : ∃ t, exec i s = .next t := by
  cases exec_cases i s with
  | refused _ he | faults _ _ he => exact ⟨_, he⟩
  | completes hc =>
    obtain ⟨t, he, _⟩ := hc
    exact ⟨t, he⟩
  | stops _ hout _ => exact absurd hout (not_reachesOutside h hi)

/-- While the invariant holds every step has a next state. -/
theorem exists_step_next (h : s.Inv) : ∃ t, step s = .next t := by
  match hi : s.inputs with
  | [] => exact ⟨_, step_idle hi⟩
  | .powerOn :: _ => exact ⟨_, step_powerOn hi⟩
  | .command w :: _ =>
    cases hs : s.faulted with
    | true => exact ⟨_, step_refused hi hs⟩
    | false =>
      cases hd : decode w with
      | error e => exact ⟨_, step_illegal hi hs hd⟩
      | ok i =>
        obtain ⟨hwf, _⟩ := encode_of_decode hd
        rw [step_executed hi hs hd]
        exact exists_exec_next (inv_takeInput h) hwf

/-! ### The step that raises a fault -/

/-- What raises each cause in `s` when the word `w` is presented: a row of 60_exceptions.md R211. -/
inductive Raises (s : State) (w : Word) : Cause → Prop
  | illegal (h : Illegal w) : Raises s w .illegalCommand
  | range (i : Instr) (c : Cause) (hd : decode w = .ok i) (h : RangeFault s i c) : Raises s w c

/-- A command that raises a fault has its range condition met and writes STATUS only (60_exceptions.md R212). -/
theorem exec_raises (hs : s.InService) (h : exec i s = .next t) (ht : t.faulted = true) :
    ∃ c, RangeFault s i c ∧ t = s.withFault c := by
  cases exec_cases i s with
  | refused hf _ => simp [State.InService, hf] at hs
  | faults c hr he =>
    rw [he, Host.Outcome.next.injEq] at h
    exact ⟨c, hr, h.symm⟩
  | completes hc =>
    obtain ⟨u, he, hu⟩ := hc
    rw [he, Host.Outcome.next.injEq] at h
    simp [State.InService, h, ht] at hu
  | stops _ _ he => simp [he] at h

/-- A step that raises a fault takes a word of a row of 60_exceptions.md R211 and writes STATUS only. -/
theorem step_raises (hs : s.InService) (h : step s = .next t) (ht : t.faulted = true) :
    ∃ w rest c, s.inputs = .command w :: rest ∧ Raises s w c ∧ t = s.takeInput.withFault c := by
  cases step_cases h with
  | idle _ hts => simp [State.InService, ← hts, ht] at hs
  | powerOn _ _ hts => simp [hts] at ht
  | refused _ _ _ hf _ => simp [State.InService, hf] at hs
  | illegal w rest e hi _ hd hts => exact ⟨w, rest, _, hi, .illegal ((decode_error_iff_illegal w).1 ⟨e, hd⟩), hts⟩
  | executed w rest i hi _ hd he =>
    obtain ⟨c, hr, hts⟩ := exec_raises (s := s.takeInput) hs he ht
    exact ⟨w, rest, c, hi, .range i c hd hr.of_takeInput, hts⟩

/-- Every cause puts STATUS at one of four values (60_exceptions.md R211). -/
theorem faultStatus_values (c : Cause) : faultStatus c = 0x0011#16 ∨ faultStatus c = 0x0021#16 ∨
    faultStatus c = 0x0031#16 ∨ faultStatus c = 0x0041#16 := by
  cases c <;> simp

end Sys2Proof.Machine
end

section
/-!
The statements of 60_exceptions.md.
-/

namespace Sys2Proof.Proofs

open Sys2Proof.Machine Sys2Proof.Spec

/-- Settles O7: the refusal is the first check of a step and of every command, and a power-on reset comes before it. -/
theorem faultedMachineRefusesEveryWord : Obligations.FaultedMachineRefusesEveryWord :=
  fun _ hf => ⟨fun _ _ hi => takeInput_eq hi ▸ step_refused hi hf, exec_refused hf, fun _ => step_clears_fault_iff hf⟩

/-- Settles O8: a step that raises a fault takes its word and records the cause. -/
theorem faultsArePrecise : Obligations.FaultsArePrecise := by
  intro s t hs h ht
  obtain ⟨_, _, c, _, _, rfl⟩ := step_raises hs h ht
  exact ⟨rfl, faultStatus_values c⟩

/-- Settles O9: the fault raised belongs to a row of R211, and STATUS holds the row's cause. -/
theorem faultCausesAreAsListed : Obligations.FaultCausesAreAsListed := by
  intro s t w rest hi hs h ht
  obtain ⟨w', rest', c, hi', hraises, rfl⟩ := step_raises hs h ht
  obtain ⟨rfl, rfl⟩ : w = w' ∧ rest = rest' := by simpa [hi] using hi'
  rw [withFault_status]
  cases hraises with
  | illegal hill => exact .inl ⟨faultStatus_illegalCommand, hill⟩
  | range i c hd hrange =>
    refine .inr ⟨i, hd, ?_⟩
    cases hrange with
    | writeU16 v hfit => exact .inl ⟨faultStatus_cursorOverrun, .inl ⟨.inl ⟨v, rfl⟩, hfit⟩⟩
    | readU16 hfit => exact .inl ⟨faultStatus_cursorOverrun, .inl ⟨.inr rfl, hfit⟩⟩
    | skip n hfit => exact .inl ⟨faultStatus_cursorOverrun, .inr ⟨n, rfl, hfit⟩⟩
    | setLength n hn => exact .inr (.inl ⟨faultStatus_lengthRange, n, rfl, hn⟩)
    | bufRead j hj => exact .inr (.inr ⟨faultStatus_viewRange, j, rfl, hj⟩)

/-- Settles O15: the model stops only on an address outside BUF, which the invariant and the width of an index rule
out. -/
theorem everyStepHasANextState : Obligations.EveryStepHasANextState :=
  fun _ hinv => exists_step_next hinv

/-- Settles O10: the five range checks, each with the value of STATUS its cause gives. -/
theorem rangeChecksFault : Obligations.RangeChecksFault :=
  fun _ hs =>
    ⟨fun v h => exec_of_rangeFault_status faultStatus_cursorOverrun hs (.writeU16 v h),
      fun h => exec_of_rangeFault_status faultStatus_cursorOverrun hs (.readU16 h),
      fun n h => exec_of_rangeFault_status faultStatus_cursorOverrun hs (.skip n h),
      fun n h => exec_of_rangeFault_status faultStatus_lengthRange hs (.setLength n h),
      fun j h => exec_of_rangeFault_status faultStatus_viewRange hs (.bufRead j h)⟩

end Sys2Proof.Proofs
end

section
/-!
A packet of header fields only (70_reset_and_hazards.md R247): a field command, one on Version among them, writes no
register but RESULT, so PTR and LEN stand where `RESET` put them.
-/

namespace Sys2Proof.Machine

open Sys2Proof.Spec

variable {s : State} {i : Instr} {l : List Instr}

/-- A field command of 41_cursor.md R166, or `SET_VERSION`, sets a field or gets a field. -/
theorem fieldCommand_or_setVersion_cases (hi : isFieldCommand i = true ∨ ∃ v, i = .setVersion v) :
    (∃ f v, i = setCommand f v) ∨ ∃ f, i = getCommand f := by
  obtain hf | ⟨v, rfl⟩ := hi
  · obtain ⟨f, v, _, rfl⟩ | hget := isFieldCommand_cases hf
    · exact .inl ⟨f, v, rfl⟩
    · exact .inr hget
  · exact .inl ⟨.version, v, rfl⟩

theorem issue_fieldCommand_sameRegisters (hs : s.InService) (hi : isFieldCommand i = true ∨ ∃ v, i = .setVersion v) :
    ∃ t, s.issue i = .next t ∧ s.SameRegisters t := by
  obtain ⟨f, v, rfl⟩ | ⟨f, rfl⟩ := fieldCommand_or_setVersion_cases hi
  · obtain ⟨t, ht, _, _, _, _, hregs⟩ := storesField_setCommand f v s hs
    exact ⟨t, (issue_of_wf hs (setCommand_wf f v)).trans ht, hregs⟩
  · obtain ⟨t, ht, _, _, hregs⟩ := readsField_getCommand f s hs
    exact ⟨t, (issue_of_wf hs (getCommand_wf f)).trans ht, hregs⟩

/-- Any number of them in any order: each leaves ZPC in service for the next one. -/
theorem issueAll_fieldCommands_sameRegisters (hs : s.InService)
    (hl : ∀ i ∈ l, isFieldCommand i = true ∨ ∃ v, i = .setVersion v) :
    ∃ t, s.issueAll l = .next t ∧ s.SameRegisters t := by
  induction l generalizing s with
  | nil => exact ⟨s, rfl, rfl, rfl, rfl, rfl, rfl, rfl⟩
  | cons i rest ih =>
    obtain ⟨u, hu, hregs⟩ := issue_fieldCommand_sameRegisters hs (hl i List.mem_cons_self)
    obtain ⟨t, ht, hregs'⟩ := ih (hregs.inService hs) fun j hj => hl j (List.mem_cons_of_mem i hj)
    exact ⟨t, (issueAll_cons_of_next rest hu).trans ht, hregs.trans hregs'⟩

theorem getLength_completes (hs : s.InService) : Completes .getLength s (·.result = ofCount s.len) :=
  ⟨_, exec_getLength hs, rfl⟩

end Sys2Proof.Machine
end

section
/-!
The statements of 70_reset_and_hazards.md.
-/

namespace Sys2Proof.Proofs

open Sys2Proof.Machine Sys2Proof.Spec

/-- Settles O37: `RESET` puts PTR and LEN at 0, and by induction on the commands neither moves. -/
theorem headerOnlyPacketIsEmpty : Obligations.HeaderOnlyPacketIsEmpty := by
  intro s₀ s l hs₀ hreset hl
  have hstart : s.Building s₀.params s.headerLen 0 := building_of_reset hs₀ hreset
  have hlen : s.len = 0 := hstart.len_eq
  obtain ⟨t, hrun, hregs⟩ := issueAll_fieldCommands_sameRegisters hstart.inService hl
  have ht : t.InService := hregs.inService hstart.inService
  obtain ⟨hptr', hlen', _⟩ := hregs
  have htlen : t.len = 0 := hlen'.trans hlen
  have hget : Completes .getLength t (·.result = ofCount t.len) := getLength_completes ht
  rw [htlen] at hget
  exact ⟨t, hrun, htlen, hptr'.trans (hstart.ptr_eq_len.trans hlen), hget⟩

end Sys2Proof.Proofs
end
